-- ==== Sys2Proof/Word.lean ====
section
/-! DEFINITION. The word types of the block and the small fixed sets of names its encodings speak of.
Bit vectors stand only for what the spec treats as bits (00_scope.md R7). -/

namespace Sys2Proof

/-- One byte; bit 7 is the most significant (R7). -/
abbrev Byte := BitVec 8

/-- A 16-bit value: a raw field value, or the checksum `{CRC_HI, CRC_LO}` (R7). -/
abbrev Half := BitVec 16

/-- A 7-bit payload offset as CONFIG holds it (R17). -/
abbrev Offset := BitVec 7

/-- The six fields of the Measurement record, in the order X[0] to X[5] (R11). -/
inductive Field where
  | pressure | temperature | windSpeed | windBearing | humidity | icon
deriving DecidableEq, Repr

/-- A ForecastLabel. The spec knows one member of the set, "sunny" (R141); every other member is a label the spec
does not name, so the model numbers them (log entry 9). -/
inductive Label where
  | sunny
  | unnamed (n : Nat)
deriving DecidableEq, Repr

end Sys2Proof
end

