-- ==== Sys2Proof/Syntax.lean ====
section
/-! DEFINITION. The operations, wire encodings and field descriptors of spec/opcode_table.json, one constructor per
row, and the formats (30_encoding.md R50) that say how a row's bytes are to be read. -/

namespace Sys2Proof

/-- The formats of R50 that a row of the opcode table has. The format is no part of a row's bits: the block knows it
from where the bytes stand (R50, R61). ERRCODE, the sixth format, has no row: it is `Machine.ErrCode.code`. -/
inductive Format where
  | op                     -- the 8-bit OPID of an operation, followed by its operand bytes (log entry 3)
  | wireTx                 -- block to station
  | wireRxAck              -- station to block, answer to a handshake read
  | wireRxFrame            -- station to block, answer to the acquisition read
  | field (f : Field)      -- the bytes of one measurement field, inside a frame
deriving DecidableEq, Repr

/-- One constructor per row of spec/opcode_table.json, in the table's order. -/
inductive Instr where
  | start
  | hsProbe
  | hsRdack
  | hsCmp
  | acqReq
  | acqRead
  | acqClose
  | acqLen
  | decEnv
  | decCrc
  | crcInit (init : Half)
  | crcUpdate (b : Byte)
  | crcResult
  | crcCheck
  | decFx
  | fxPressure
  | fxTemp
  | fxWind
  | fxBearing
  | fxHum
  | fxIcon
  | ldU8 (off : Offset)
  | ldU16le (off : Offset)
  | fcMap
  | haltOk
  | haltErr
  | wake
  | loop1
  | ack
  | frame (body : List Byte) (chkHi chkLo : Byte)
  | fieldPressure (raw : Half)
  | fieldTemperature (raw : Half)
  | fieldWindSpeed (raw : Byte)
  | fieldWindBearing (raw : Half)
  | fieldHumidity (raw : Byte)
  | fieldIcon (raw : Byte)
deriving DecidableEq, Repr

/-- The format of a row (the table's "format"). -/
def Instr.format : Instr → Format
  | .wake | .loop1 => .wireTx
  | .ack => .wireRxAck
  | .frame _ _ _ => .wireRxFrame
  | .fieldPressure _ => .field .pressure
  | .fieldTemperature _ => .field .temperature
  | .fieldWindSpeed _ => .field .windSpeed
  | .fieldWindBearing _ => .field .windBearing
  | .fieldHumidity _ => .field .humidity
  | .fieldIcon _ => .field .icon
  | .start | .hsProbe | .hsRdack | .hsCmp | .acqReq | .acqRead | .acqClose | .acqLen | .decEnv | .decCrc
  | .crcInit _ | .crcUpdate _ | .crcResult | .crcCheck | .decFx | .fxPressure | .fxTemp | .fxWind | .fxBearing
  | .fxHum | .fxIcon | .ldU8 _ | .ldU16le _ | .fcMap | .haltOk | .haltErr => .op

/-- The record of R56, less the name and the offset (the offset is CONFIG's). -/
structure FieldDesc where
  width     : Nat                    -- 1 or 2 bytes
  sentinel  : Option Half            -- the raw value that means absent
  normalise : Option (Half × Half)   -- a raw value and what replaces it
  signed    : Bool                   -- the raw value is read as two's complement
  exponent  : Int                    -- value = v x 10^exponent
deriving DecidableEq, Repr

/-- CONFIG (10_state.md R17): the layout's offsets, whether it has a wind_bearing field, and the two switches. -/
structure ConfigReg where
  pressureOff : Offset
  tempOff     : Offset
  windOff     : Offset
  bearingEn   : Bool
  bearingOff  : Offset
  humOff      : Offset
  iconOff     : Offset
  tempSigned  : Bool
  forecastEn  : Bool
deriving DecidableEq, Repr

/-- The two bytes a checksum transform works on: `x`, the input byte XORed against the running most-significant half,
and `y`, the running least-significant half (R81, R86). -/
inductive CrcByte where
  | x | y
deriving DecidableEq, Repr

/-- The direction of a shift. -/
inductive ShiftDir where
  | left | right
deriving DecidableEq, Repr

/-- One line of a table-free checksum transform (R81, R86): `target <- target XOR (source shifted)`, by 0 to 7 bits. -/
structure CrcOp where
  target : CrcByte
  source : CrcByte
  dir    : ShiftDir
  amount : BitVec 3
deriving DecidableEq, Repr

/-- The ERR codes: a 3-bit code for each of the four error conditions (R6, R16, R150). -/
structure ErrCodes where
  stationNotReady     : BitVec 3
  incompleteData      : BitVec 3
  malformedPacket     : BitVec 3
  unknownForecastCode : BitVec 3
deriving DecidableEq, Repr

/-- The parameters of 00_scope.md R6 that have a default and are neither CONFIG's nor the table, as plain data (log
entry 29). `crcStep` is CRC_STEP, the lines of the transform in order. -/
structure Params where
  crcStep  : List CrcOp
  errCodes : ErrCodes
deriving DecidableEq, Repr

end Sys2Proof
end

