-- ==== Sys2Proof/Config.lean ====
section
/-! DEFINITION. What an implementation fixes (00_scope.md R6) and the free values: constants with no body, of which
nothing can be proved, so that a claim holds whatever they are. The parameters of R6 that have a default are data in
the state: CONFIG, the table, and `Params` (CRC_STEP and the ERR codes). -/

namespace Sys2Proof

/-- FRAME_LEN: bytes in a raw frame (R6). -/
def Config.frameLen : Nat := 100

/-- PAYLOAD_BASE: the frame address of payload byte 0 (R36). -/
def Config.payloadBase : Nat := 1

/-- PAYLOAD_LEN: bytes in the payload (R6). -/
def Config.payloadLen : Nat := 99

/-- BAUD (R162). No rule of the model reads it. -/
def Config.baud : Nat := 19200

/-- T_READ in tenths of a second, "about 1.2 s" (R161). No rule of the model reads it: the model has no time. -/
def Config.readTimeoutTenths : Nat := 12

/-- DEVICE_PATH, OPEN in R6. No rule of the model reads it. -/
opaque Config.devicePath : List Byte

/-- FREE VALUE (R38, U5; log entry 5): the environment's k-th answer to a `SerRead` for which no answer is listed in
the state; the read takes at most the bytes it asked for. -/
opaque Config.serialAnswer : Nat → List Byte

/-- FREE VALUE (R19, U9; log entry 6): a byte of ACKBUF at or beyond ACKLEN. -/
opaque Config.freeByte : Nat → Byte

/-- FREE VALUE (R13; log entry 7): what ATTEMPT holds after HS.PROBE ran with ATTEMPT = 3, a sum the spec says no
run forms. -/
opaque Config.attemptPastThree : Nat → BitVec 2

/-- FREE VALUE (R17, R112, U7; log entry 28): what the pure functions DECODE and RUN take for a byte at a payload offset
that does not exist. Only an ill-formed layout, to which the spec gives no meaning, asks for one. -/
opaque Config.beyondPayload : Nat → Byte

/-- OPEN PARAMETER (R141, U6; log entry 9): the entries of FORECAST_TABLE other than icon 8. -/
opaque Config.forecastRest : List (Byte × Label)

end Sys2Proof
end

