-- ==== Sys2Proof/WellFormed.lean ====
section
/-! DEFINITION. Which terms of `Instr` stand for an instruction the encoding admits. -/

namespace Sys2Proof

/-- LD.U8 takes an offset 0 to 98 (R120), LD.U16LE 0 to 97 (R121); the body of a FRAME is 92 bytes (R54). Every
other operand has no illegal value. -/
def Instr.wellFormed : Instr → Bool
  | .ldU8 off => decide (off.toNat + 1 ≤ Config.payloadLen)
  | .ldU16le off => decide (off.toNat + 2 ≤ Config.payloadLen)
  | .frame body _ _ => decide (body.length = 92)
  | .start | .hsProbe | .hsRdack | .hsCmp | .acqReq | .acqRead | .acqClose | .acqLen | .decEnv | .decCrc
  | .crcInit _ | .crcUpdate _ | .crcResult | .crcCheck | .decFx | .fxPressure | .fxTemp | .fxWind | .fxBearing
  | .fxHum | .fxIcon | .fcMap | .haltOk | .haltErr | .wake | .loop1 | .ack | .fieldPressure _
  | .fieldTemperature _ | .fieldWindSpeed _ | .fieldWindBearing _ | .fieldHumidity _ | .fieldIcon _ => true

/-- Every field of the layout lies inside the payload: offset + width at most 99, the bearing only where the layout has
one (R17, R56, D23). -/
def ConfigReg.wellFormed (c : ConfigReg) : Bool :=
  decide (c.pressureOff.toNat + 2 ≤ Config.payloadLen) &&
  decide (c.tempOff.toNat + 2 ≤ Config.payloadLen) &&
  decide (c.windOff.toNat + 1 ≤ Config.payloadLen) &&
  (!c.bearingEn || decide (c.bearingOff.toNat + 2 ≤ Config.payloadLen)) &&
  decide (c.humOff.toNat + 1 ≤ Config.payloadLen) &&
  decide (c.iconOff.toNat + 1 ≤ Config.payloadLen)

/-- The codes tell the four error conditions apart from each other and from no error, which is 0 (R16, R150). -/
def ErrCodes.wellFormed (codes : ErrCodes) : Bool :=
  decide ([0#3, codes.stationNotReady, codes.incompleteData, codes.malformedPacket, codes.unknownForecastCode].Nodup)

end Sys2Proof
end

