-- ==== Sys2Proof/Decode.lean ====
section
/-! DEFINITION. The encodings of 30_encoding.md, the decoder (total on any bytes, rejecting by name), and after it the
encoder, written from the same tables. A decoder call names the format its bytes stand in (R50, R61): the formats are
told apart by their place, not by their bits. -/

namespace Sys2Proof

/-- Why bytes are no instruction of a format. -/
inductive DecodeError where
  | noBytes                   -- nothing to read
  | truncated                 -- the bytes end inside the instruction
  | noOperation (b : Byte)    -- an OPID outside the table of R59
  | offsetRange (b : Byte)    -- the operand of LD.U8 or LD.U16LE lies beyond its last legal offset (R120, R121)
  | notACommand               -- neither WAKE (R51) nor LOOP1 (R52)
  | notAck                    -- not 0x0A 0x0D (R53)
  | notAFrame                 -- 100 bytes that do not match the envelope shape (R54)
deriving DecidableEq, Repr

/-- WAKE, one line feed (R51). -/
def wakeBytes : List Byte := [0x0A#8]

/-- LOOP1, "LOOP 1" and a line feed (R52). -/
def loop1Bytes : List Byte := [0x4C#8, 0x4F#8, 0x4F#8, 0x50#8, 0x20#8, 0x31#8, 0x0A#8]

/-- ACK, line feed then carriage return (R53). -/
def ackBytes : List Byte := [0x0A#8, 0x0D#8]

/-- The lead byte B[0] and the literal "LOO" B[1..3] of a frame (R54). -/
def frameHead : List Byte := [0x06#8, 0x4C#8, 0x4F#8, 0x4F#8]

/-- The literal B[96..97] of a frame (R54). -/
def frameTrailer : List Byte := [0x0A#8, 0x0D#8]

/-- The 16-bit value whose high half is `hi` (R7). -/
def halves (hi lo : Byte) : Half := hi ++ lo

/-- bits 15:8 (R7). -/
def highHalf (v : Half) : Byte := v.extractLsb' 8 8

/-- bits 7:0 (R7). -/
def lowHalf (v : Half) : Byte := v.extractLsb' 0 8

/-- Layout variant A with TEMP_SIGNED = 1 and FORECAST_EN = 1: the defaults of CONFIG (R17, R56). -/
def ConfigReg.layoutA : ConfigReg where
  pressureOff := 7
  tempOff := 12
  windOff := 14
  bearingEn := true
  bearingOff := 16
  humOff := 32
  iconOff := 89
  tempSigned := true
  forecastEn := true

/-- Layout variant B (R57). The spec fixes no humidity and no icon offset for it: they are arguments (U2). -/
def ConfigReg.layoutB (hum icon : Offset) : ConfigReg :=
  { ConfigReg.layoutA with bearingEn := false, humOff := hum, iconOff := icon }

/-- The ERR codes by default: 1 to 4 in the order of R150 (R6, D9). -/
def ErrCodes.default : ErrCodes := ⟨1, 2, 3, 4⟩

/-- The transform of R81, line by line, on `x = b XOR CRC_HI` and `y = CRC_LO`; `y` becomes the high half and `x` the low
half (R6, D1). -/
def CrcOp.default : List CrcOp :=
  [⟨.x, .x, .right, 4⟩, ⟨.y, .x, .right, 3⟩, ⟨.y, .x, .left, 4⟩, ⟨.x, .x, .left, 5⟩]

/-- The defaults of R6: the transform of R81 and the codes of R150. -/
def Params.default : Params := ⟨CrcOp.default, .default⟩

/-- Format OP: the OPID table of R59. Operand bytes follow the OPID (log entry 3). -/
def decodeOp : List Byte → Except DecodeError (Instr × List Byte)
  | [] => .error .noBytes
  | b :: rest =>
    match b.toNat with
    | 0x00 => .ok (.start, rest)
    | 0x10 => .ok (.hsProbe, rest)
    | 0x20 => .ok (.hsRdack, rest)
    | 0x30 => .ok (.hsCmp, rest)
    | 0x40 => .ok (.acqReq, rest)
    | 0x50 => .ok (.acqRead, rest)
    | 0x60 => .ok (.acqClose, rest)
    | 0x70 => .ok (.acqLen, rest)
    | 0x80 => .ok (.decEnv, rest)
    | 0x90 => .ok (.decCrc, rest)
    | 0x91 =>
      match rest with
      | h :: l :: rest' => .ok (.crcInit (halves h l), rest')
      | _ => .error .truncated
    | 0x92 =>
      match rest with
      | v :: rest' => .ok (.crcUpdate v, rest')
      | [] => .error .truncated
    | 0x93 => .ok (.crcResult, rest)
    | 0x94 => .ok (.crcCheck, rest)
    | 0xA0 => .ok (.decFx, rest)
    | 0xA1 => .ok (.fxPressure, rest)
    | 0xA2 => .ok (.fxTemp, rest)
    | 0xA3 => .ok (.fxWind, rest)
    | 0xA4 => .ok (.fxBearing, rest)
    | 0xA5 => .ok (.fxHum, rest)
    | 0xA6 => .ok (.fxIcon, rest)
    | 0xA8 =>
      match rest with
      | o :: rest' => if o.toNat ≤ 98 then .ok (.ldU8 (o.setWidth 7), rest') else .error (.offsetRange o)
      | [] => .error .truncated
    | 0xA9 =>
      match rest with
      | o :: rest' => if o.toNat ≤ 97 then .ok (.ldU16le (o.setWidth 7), rest') else .error (.offsetRange o)
      | [] => .error .truncated
    | 0xB0 => .ok (.fcMap, rest)
    | 0xC0 => .ok (.haltOk, rest)
    | 0xD0 => .ok (.haltErr, rest)
    | _ => .error (.noOperation b)

/-- Format WIRE_TX (R51, R52). -/
def decodeTx (bs : List Byte) : Except DecodeError (Instr × List Byte) :=
  if bs.take 1 = wakeBytes then .ok (.wake, bs.drop 1)
  else if bs.take 7 = loop1Bytes then .ok (.loop1, bs.drop 7)
  else .error .notACommand

/-- Format WIRE_RX_ACK (R53). -/
def decodeAck (bs : List Byte) : Except DecodeError (Instr × List Byte) :=
  if bs.take 2 = ackBytes then .ok (.ack, bs.drop 2) else .error .notAck

/-- Format WIRE_RX_FRAME (R54): the match is by position; the body may hold any bytes, and the checksum is no part of
the shape. -/
def decodeFrame (bs : List Byte) : Except DecodeError (Instr × List Byte) :=
  match (bs.drop 98).take 2 with
  | [hi, lo] =>
    if bs.take 4 = frameHead ∧ (bs.drop 96).take 2 = frameTrailer then
      .ok (.frame ((bs.drop 4).take 92) hi lo, bs.drop 100)
    else .error .notAFrame
  | _ => .error .truncated

/-- Format FIELD (R30, R56): one byte, or two with the low byte first. -/
def decodeField (f : Field) (bs : List Byte) : Except DecodeError (Instr × List Byte) :=
  match f, bs with
  | .pressure, l :: h :: rest => .ok (.fieldPressure (halves h l), rest)
  | .temperature, l :: h :: rest => .ok (.fieldTemperature (halves h l), rest)
  | .windSpeed, v :: rest => .ok (.fieldWindSpeed v, rest)
  | .windBearing, l :: h :: rest => .ok (.fieldWindBearing (halves h l), rest)
  | .humidity, v :: rest => .ok (.fieldHumidity v, rest)
  | .icon, v :: rest => .ok (.fieldIcon v, rest)
  | _, _ => .error .truncated

/-- The decoder: the instruction at the head of the bytes, read as the format says, and the bytes after it. -/
def decode : Format → List Byte → Except DecodeError (Instr × List Byte)
  | .op, bs => decodeOp bs
  | .wireTx, bs => decodeTx bs
  | .wireRxAck, bs => decodeAck bs
  | .wireRxFrame, bs => decodeFrame bs
  | .field f, bs => decodeField f bs

/-- The encoder, from the tables of R51 to R54, R56 and R59. -/
def encode : Instr → List Byte
  | .start => [0x00#8]
  | .hsProbe => [0x10#8]
  | .hsRdack => [0x20#8]
  | .hsCmp => [0x30#8]
  | .acqReq => [0x40#8]
  | .acqRead => [0x50#8]
  | .acqClose => [0x60#8]
  | .acqLen => [0x70#8]
  | .decEnv => [0x80#8]
  | .decCrc => [0x90#8]
  | .crcInit init => [0x91#8, highHalf init, lowHalf init]
  | .crcUpdate b => [0x92#8, b]
  | .crcResult => [0x93#8]
  | .crcCheck => [0x94#8]
  | .decFx => [0xA0#8]
  | .fxPressure => [0xA1#8]
  | .fxTemp => [0xA2#8]
  | .fxWind => [0xA3#8]
  | .fxBearing => [0xA4#8]
  | .fxHum => [0xA5#8]
  | .fxIcon => [0xA6#8]
  | .ldU8 off => [0xA8#8, off.setWidth 8]
  | .ldU16le off => [0xA9#8, off.setWidth 8]
  | .fcMap => [0xB0#8]
  | .haltOk => [0xC0#8]
  | .haltErr => [0xD0#8]
  | .wake => wakeBytes
  | .loop1 => loop1Bytes
  | .ack => ackBytes
  | .frame body hi lo => frameHead ++ (body ++ (frameTrailer ++ [hi, lo]))
  | .fieldPressure raw => [lowHalf raw, highHalf raw]
  | .fieldTemperature raw => [lowHalf raw, highHalf raw]
  | .fieldWindSpeed raw => [raw]
  | .fieldWindBearing raw => [lowHalf raw, highHalf raw]
  | .fieldHumidity raw => [raw]
  | .fieldIcon raw => [raw]

/-! ### Words numbered as spec/opcode_table.json numbers them -/

/-- The `n` bytes of a pattern read as one number with bit 0 its least significant bit (98_reader.md), first byte on
the line first: the most significant byte of the number comes first. -/
def patternBytes : Nat → Nat → List Byte
  | 0, _ => []
  | n + 1, w => BitVec.ofNat 8 (w / 256 ^ n) :: patternBytes n w

/-- Where the bits of a table word stand as bytes, and in which format (log entry 4). A row of format OP has 8 bits;
its operand bytes are the two zero bytes after it. A wire row is told from the others by its width and fixed bits. A
FIELD row has no fixed bit: no word names one. -/
def tableWord (nbits w : Nat) : Option (Format × List Byte) :=
  if nbits = 8 then
    match decodeOp [BitVec.ofNat 8 w, 0#8, 0#8] with
    | .ok _ => some (.op, [BitVec.ofNat 8 w, 0#8, 0#8])
    | .error _ =>
      match decodeTx (patternBytes 1 w) with
      | .ok _ => some (.wireTx, patternBytes 1 w)
      | .error _ => none
  else if nbits = 16 then
    match decodeAck (patternBytes 2 w) with
    | .ok _ => some (.wireRxAck, patternBytes 2 w)
    | .error _ => none
  else if nbits = 56 then
    match decodeTx (patternBytes 7 w) with
    | .ok _ => some (.wireTx, patternBytes 7 w)
    | .error _ => none
  else if nbits = 800 then
    match decodeFrame (patternBytes 100 w) with
    | .ok _ => some (.wireRxFrame, patternBytes 100 w)
    | .error _ => none
  else none

/-- What a table word puts before the decoder: `tableWord`, and for a word that matches no row its bytes in a format of
its width, of which the decoder makes no instruction: the next step refuses them. That a word of no row is refused is
the model's choice (log entry 22): the spec says that none can be presented (R60). -/
def fetchWord (nbits w : Nat) : Format × List Byte :=
  match tableWord nbits w with
  | some p => p
  | none =>
    if nbits = 8 then (.op, patternBytes 1 w)
    else if nbits = 16 then (.wireRxAck, patternBytes 2 w)
    else if nbits = 56 then (.wireTx, patternBytes 7 w)
    else if nbits = 800 then (.wireRxFrame, patternBytes 100 w)
    else (.op, [])

/-- The instruction the decoder reads from a table word. -/
def decodeTableWord (nbits w : Nat) : Option Instr :=
  match tableWord nbits w with
  | some (f, bs) =>
    match decode f bs with
    | .ok (i, _) => some i
    | .error _ => none
  | none => none

end Sys2Proof
end

