-- ==== Sys2Proof/Machine/Crc.lean ====
section
/-! DEFINITION. The Checksum Engine's pure functions (41_checksum.md). `crcStep` is the parameter CRC_STEP of R6: every
use of the transform goes through it, and takes it as an argument (log entries 12 and 29). -/

namespace Sys2Proof.Machine

/-- The two bytes of a transform. -/
structure CrcPair where
  x : Byte
  y : Byte
deriving DecidableEq, Repr

/-- One of the two bytes. -/
def CrcPair.get (p : CrcPair) : CrcByte → Byte
  | .x => p.x
  | .y => p.y

/-- A byte shifted; zeros enter (R7). -/
def shiftByte (b : Byte) : ShiftDir → BitVec 3 → Byte
  | .left, n => b <<< n.toNat
  | .right, n => b >>> n.toNat

/-- One line of a transform. -/
def crcOp (p : CrcPair) (op : CrcOp) : CrcPair :=
  match op.target with
  | .x => { p with x := p.x ^^^ shiftByte (p.get op.source) op.dir op.amount }
  | .y => { p with y := p.y ^^^ shiftByte (p.get op.source) op.dir op.amount }

/-- The lines of a transform, in order. -/
def crcMix (transform : List CrcOp) (p : CrcPair) : CrcPair := transform.foldl crcOp p

/-- CRC_STEP on the 16-bit checksum `{CRC_HI, CRC_LO}` (R6, R81, U18). What R86 fixes of every transform is its form: the
byte is XORed against the most-significant half, the two halves are mixed by shifts without a table, and both are
updated, `y` being the new high half and `x` the new low half. -/
def crcStep (transform : List CrcOp) (c : Half) (b : Byte) : Half :=
  let p := crcMix transform ⟨b ^^^ highHalf c, lowHalf c⟩
  halves p.y p.x

/-- A transform has a cross-shift by `n` bits: one from one half into the other. -/
def hasCrossShift (transform : List CrcOp) (n : BitVec 3) : Bool :=
  transform.any fun op => decide (op.target ≠ op.source ∧ op.amount = n)

/-- What R86 binds a replacement of R81 to beyond the form of `crcStep`: "4-bit and 3-bit cross-shifts", and R85 (a)
and (b). For (a): a byte equal to the high half leaves `{CRC_LO, 0x00}`. For (b), beside that: no register but 0 is taken
to 0 by a byte 0. Both are decided on the bytes; that they are how the model asks for (a) and (b) is log entry 29. -/
def crcWellFormed (transform : List CrcOp) : Bool :=
  hasCrossShift transform 4 && hasCrossShift transform 3 &&
    decide (∀ l : Byte, crcMix transform ⟨0, l⟩ = ⟨0, l⟩) &&
    decide (∀ h : Byte, h ≠ 0 → (crcMix transform ⟨h, 0⟩).x ≠ 0)

/-- `crc16(s, init)` under a transform (R83): bytes are absorbed in string order. -/
def crc16 (transform : List CrcOp) (s : List Byte) (init : Half) : Half := s.foldl (crcStep transform) init

/-! ### R81's own two definitions of the default transform: not used by the machine, stated equal to it -/

/-- R81's lines on the two halves; both results use the old `lo`. -/
def crcStepHalves (hi lo b : Byte) : Byte × Byte :=
  let x := b ^^^ hi
  let x := x ^^^ (x >>> 4)
  (lo ^^^ (x >>> 3) ^^^ (x <<< 4), x ^^^ (x <<< 5))

/-- R81's lines on the 16-bit checksum `{CRC_HI, CRC_LO}`. -/
def crcStepDefault (c : Half) (b : Byte) : Half :=
  halves (crcStepHalves (highHalf c) (lowHalf c) b).1 (crcStepHalves (highHalf c) (lowHalf c) b).2

/-- One step of the bit-serial division by 0x1021 (R81). -/
def crcBit (c : Half) : Half := if c.getLsbD 15 then (c <<< 1) ^^^ 0x1021#16 else c <<< 1

/-- R81's equivalent bit-serial definition. -/
def crcStepSerial (c : Half) (b : Byte) : Half :=
  let c := c ^^^ (b.setWidth 16 <<< 8)
  crcBit (crcBit (crcBit (crcBit (crcBit (crcBit (crcBit (crcBit c)))))))

end Sys2Proof.Machine
end

