-- ==== Sys2Proof/Machine/State.lean ====
section
/-! DEFINITION. The state of the block as plain data (10_state.md R10 to R21, R26), the inputs the outside world gives
it (R25, R38), and the reasons a step can stop. -/

namespace Sys2Proof.Machine

/-- PHASE, the block's program counter: the 14 named values of R12. The codes 0xE and 0xF are no phase (R60). -/
inductive Phase where
  | idle | hsProbe | hsRdack | hsCmp | acqReq | acqRead | acqClose | acqLen | decEnv | decCrc | decFx | fcMap | done
  | failed
deriving DecidableEq, Repr

/-- ERR: no error, or one of the four error conditions (R16, R150). Their 3-bit codes are `ErrCode.code`; a code that is
none of theirs is never written (R60). -/
inductive ErrCode where
  | noError | stationNotReady | incompleteData | malformedPacket | unknownForecastCode
deriving DecidableEq, Repr

/-- A result register X[i]: a valid bit and 16 raw bits (R11). -/
structure XReg where
  valid : Bool
  raw   : Half
deriving DecidableEq, Repr

/-- `absent`, the pair (0, 0) (R8). -/
def XReg.absent : XReg := ⟨false, 0⟩

/-- The result register file X[0..5], by the names of R11. -/
structure XFile where
  pressure    : XReg
  temperature : XReg
  windSpeed   : XReg
  windBearing : XReg
  humidity    : XReg
  icon        : XReg
deriving DecidableEq, Repr

/-- All six registers absent, as reset and START leave them (R26, R70). -/
def XFile.allAbsent : XFile := ⟨.absent, .absent, .absent, .absent, .absent, .absent⟩

/-- LABEL: a valid bit and a ForecastLabel (R21). -/
structure LabelReg where
  valid : Bool
  label : Label
deriving DecidableEq, Repr

/-- What the host does at one step (R25 (a)); `quiet` lets the sequencer take a step (log entry 1). -/
inductive HostCmd where
  | quiet
  | reset
  | start
  | writeConfig (c : ConfigReg)
  | writeStatus (v : BitVec 9)
deriving DecidableEq, Repr

/-- The state: R10's registers in R10's order, then R24's observation, R6's table and other parameters, the
inputs, and the model's own
fields. -/
structure State where
  /-- PHASE (R12). -/
  phase    : Phase
  /-- ATTEMPT, handshake attempts started in this run (R13). -/
  attempt  : BitVec 2
  /-- LINK_OPEN (R14). -/
  linkOpen : Bool
  /-- ACKBUF[0] (R19). -/
  ackbuf0  : Byte
  /-- ACKBUF[1] (R19). -/
  ackbuf1  : Byte
  /-- ACKLEN (R19). -/
  acklen   : BitVec 2
  /-- FRAME (R20): the bytes that have been written, by address. -/
  frame    : List Host.Cell
  /-- FRAMELEN (R20). -/
  framelen : BitVec 7
  /-- CRC_HI (R18). -/
  crcHi    : Byte
  /-- CRC_LO (R18). -/
  crcLo    : Byte
  /-- X[0..5] (R11). -/
  x        : XFile
  /-- LABEL (R21). -/
  label    : LabelReg
  /-- ERR (R16). -/
  err      : ErrCode
  /-- CONFIG (R17). -/
  config   : ConfigReg
  /-- TXLOG, the bytes sent since START, an observation (R24). -/
  txlog    : List Byte
  /-- FORECAST_TABLE, configuration fixed for the life of the block (R17, R141). -/
  table    : List (Byte × Label)
  /-- CRC_STEP and the ERR codes, parameters fixed for the life of the block (R6, U18; log entry 29). -/
  params   : Params
  /-- INPUT: the environment's answers to the next `SerRead`s, in order (R38, R75; log entry 5). -/
  rx       : List (List Byte)
  /-- INPUT: what the host does at the next steps, in order; nothing once the list is empty (R25; log entry 1). -/
  host     : List HostCmd
  /-- MODEL'S OWN: how many free values have been drawn (log entry 5). -/
  drawn    : Nat
  /-- MODEL'S OWN: an instruction presented to the block from outside its sequencer, as bytes of a format
  (log entry 2). -/
  issue    : Option (Format × List Byte)
  /-- MODEL'S OWN: the value the last CRC.RESULT, CRC.CHECK, LD.U8 or LD.U16LE returned, an observation
  (log entry 14). -/
  ret      : Half
deriving DecidableEq, Repr

/-- Why the block stops. -/
inductive Fault where
  /-- Raised by HS.PROBE, HS.RDACK, ACQ.REQ, ACQ.READ, WAKE and LOOP1 where LINK_OPEN = 0: the serial primitives require
  LINK_OPEN = 1 (R38). Safe: the model stops where the spec gives no effect, and no run gets there (log entry 11). -/
  | linkClosed
  /-- Raised by every reader of FRAME for a byte no acquisition read has written: it has no value (R20, R26, U8). Safe:
  the model stops, and no run gets there (log entry 10). -/
  | frameUnspecified
  /-- Raised by every reader of FRAME for an address above 99, which does not exist (R37). Only an ill-formed CONFIG or
  operand asks for one. Safe (log entry 19). -/
  | outsideFrame
deriving DecidableEq, Repr

/-- What the model does not accept. -/
inductive Refusal where
  /-- An instruction that has no meaning yet, by its mnemonic. Safe. -/
  | notModelled (mnemonic : String)
  /-- Raised by `step` when the issue slot holds bytes that are no instruction of their format (R60). Safe: the slot is
  the model's own and no run fills it (log entry 22). -/
  | undecodable (e : DecodeError)
  /-- Raised by `step` when the host writes an ill-formed layout to CONFIG in IDLE: "the model refuses it" (R17, D23,
  U7). Safe (log entry 18). -/
  | illFormedConfig
deriving DecidableEq, Repr

/-- What a meaning or a step answers. -/
abbrev Result := Host.Outcome State Fault Refusal

/-- The state after reset (R26). ACKBUF, ACKLEN, CRC_HI, CRC_LO and the label under a clear valid bit are values the
model names, since R26 leaves them unspecified (log entry 8); nothing stands in FRAME; the table is the one pair R141
gives and an unknown rest; the other parameters have R6's defaults. -/
def State.reset : State where
  phase := .idle
  attempt := 0
  linkOpen := false
  ackbuf0 := 0
  ackbuf1 := 0
  acklen := 0
  frame := []
  framelen := 0
  crcHi := 0
  crcLo := 0
  x := .allAbsent
  label := ⟨false, .unnamed 0⟩
  err := .noError
  config := .layoutA
  txlog := []
  table := (8, .sunny) :: Config.forecastRest
  params := .default
  rx := []
  host := []
  drawn := 0
  issue := none
  ret := 0

end Sys2Proof.Machine
end

