-- ==== Sys2Proof/Machine/Ops.lean ====
section
/-! DEFINITION. The named operations over the registers, FRAME, the serial streams and the error entry: the primitives
of 00_scope.md R8. -/

namespace Sys2Proof.Machine

/-! ### FRAME (20_memory.md R37) -/

/-- What an address that is not listed reads as: no value (R26, U8; log entry 10). -/
def Memory.unlisted : Option Byte := none

/-- The value listed at an address. -/
def Memory.lookup : List Host.Cell → Nat → Option Byte
  | [], _ => Memory.unlisted
  | (b, w) :: m, a => if b = a then some w else Memory.lookup m a

/-- One byte written, in place of the one listed before; addresses stay rising. -/
def Memory.write : List Host.Cell → Nat → Byte → List Host.Cell
  | [], a, v => [(a, v)]
  | (b, w) :: m, a, v =>
    if a < b then (a, v) :: (b, w) :: m
    else if a = b then (a, v) :: m
    else (b, w) :: Memory.write m a v

/-- Bytes written at consecutive addresses from `a` on. -/
def Memory.writeFrom (m : List Host.Cell) (a : Nat) : List Byte → List Host.Cell
  | [] => m
  | v :: vs => Memory.writeFrom (Memory.write m a v) (a + 1) vs

/-- Canonical from address `lo` on: addresses strictly rising, all inside FRAME. -/
def Memory.wfFrom : Nat → List Host.Cell → Bool
  | _, [] => true
  | lo, (a, _) :: m => decide (lo ≤ a) && decide (a < Config.frameLen) && Memory.wfFrom (a + 1) m

/-- The canonical form of FRAME: addresses strictly rising, 0 to 99. No listed byte can equal what an unlisted address
reads as, since that is no value. -/
def Memory.wf (m : List Host.Cell) : Bool := Memory.wfFrom 0 m

/-- `MemRead(addr, 1)` (R37). A byte at or beyond FRAMELEN, or never written, has no value (R20, R44). -/
def readByte (s : State) (a : Nat) : Except Fault Byte :=
  if a < Config.frameLen then
    if a < s.framelen.toNat then
      match Memory.lookup s.frame a with
      | some v => .ok v
      | none => .error .frameUnspecified
    else .error .frameUnspecified
  else .error .outsideFrame

/-- The `n` bytes from address `a` on, read in rising order. -/
def readBytes (s : State) : Nat → Nat → Except Fault (List Byte)
  | _, 0 => .ok []
  | a, n + 1 =>
    match readByte s a with
    | .error f => .error f
    | .ok v =>
      match readBytes s (a + 1) n with
      | .error f => .error f
      | .ok vs => .ok (v :: vs)

/-- `MemRead(addr, 2)`, little-endian (R30, R37). -/
def readHalf (s : State) (a : Nat) : Except Fault Half :=
  match readByte s a with
  | .error f => .error f
  | .ok lo =>
    match readByte s (a + 1) with
    | .error f => .error f
    | .ok hi => .ok (halves hi lo)

/-- Goes on with what was read, or stops with the read's fault. -/
def orFault {α : Type} (r : Except Fault α) (k : α → Result) : Result :=
  match r with
  | .ok v => k v
  | .error f => .fault f

/-! ### The register file and the checksum register -/

/-- Read of X[i] (R8). -/
def XFile.get (x : XFile) : Field → XReg
  | .pressure => x.pressure
  | .temperature => x.temperature
  | .windSpeed => x.windSpeed
  | .windBearing => x.windBearing
  | .humidity => x.humidity
  | .icon => x.icon

/-- Write of X[i] (R8). -/
def XFile.set (x : XFile) (f : Field) (r : XReg) : XFile :=
  match f with
  | .pressure => { x with pressure := r }
  | .temperature => { x with temperature := r }
  | .windSpeed => { x with windSpeed := r }
  | .windBearing => { x with windBearing := r }
  | .humidity => { x with humidity := r }
  | .icon => { x with icon := r }

/-- `x[i] <- r` (R8). -/
def State.setX (s : State) (f : Field) (r : XReg) : State := { s with x := s.x.set f r }

/-- `{CRC_HI, CRC_LO}` (R18, R82). -/
def State.crc (s : State) : Half := halves s.crcHi s.crcLo

/-- Both halves of the checksum register written together (R18). -/
def State.setCrc (s : State) (c : Half) : State := { s with crcHi := highHalf c, crcLo := lowHalf c }

/-- What an operation returned, kept for an observer (log entry 14). -/
def State.setRet (s : State) (v : Half) : State := { s with ret := v }

/-! ### PHASE and ERR -/

/-- `pc <- T` (R8). -/
def State.goto (s : State) (p : Phase) : State := { s with phase := p }

/-- The 4-bit code of a phase (R12). -/
def Phase.code : Phase → BitVec 4
  | .idle => 0x0
  | .hsProbe => 0x1
  | .hsRdack => 0x2
  | .hsCmp => 0x3
  | .acqReq => 0x4
  | .acqRead => 0x5
  | .acqClose => 0x6
  | .acqLen => 0x7
  | .decEnv => 0x8
  | .decCrc => 0x9
  | .decFx => 0xA
  | .fcMap => 0xB
  | .done => 0xC
  | .failed => 0xD

/-- The OPID of a phase's own operation: the phase code and index 0 (R59). -/
def Phase.opid (p : Phase) : Byte := p.code ++ 0#4

/-- The 3-bit code of an error condition under the codes in force; 0 is no error (R16, R150). -/
def ErrCode.code (codes : ErrCodes) : ErrCode → BitVec 3
  | .noError => 0
  | .stationNotReady => codes.stationNotReady
  | .incompleteData => codes.incompleteData
  | .malformedPacket => codes.malformedPacket
  | .unknownForecastCode => codes.unknownForecastCode

/-! ### The serial line (20_memory.md R38) -/

/-- `SerWrite(bytes)`: requires the link open, and then always completes (R38; log entries 11, 23). -/
def serWrite (s : State) (bytes : List Byte) : Except Fault State :=
  if s.linkOpen then .ok { s with txlog := s.txlog ++ bytes } else .error .linkClosed

/-- The environment's next answer: the first one listed, or a free value where none is (log entry 5). -/
def nextAnswer (s : State) : List Byte × State :=
  match s.rx with
  | r :: rest => (r, { s with rx := rest })
  | [] => (Config.serialAnswer s.drawn, { s with drawn := s.drawn + 1 })

/-- `SerRead(n)`: requires the link open; the answer is any string of at most `n` bytes (R38). -/
def serRead (s : State) (n : Nat) : Except Fault (List Byte × State) :=
  if s.linkOpen then .ok ((nextAnswer s).1.take n, (nextAnswer s).2) else .error .linkClosed

/-- `SerClose()` (R38). -/
def serClose (s : State) : State := { s with linkOpen := false }

/-! ### Error entry and reset -/

/-- `raise E` (60_exceptions.md R157): the one entry of every error condition. It saves nothing, since there is no
return (R158). -/
def raise (e : ErrCode) (s : State) : State :=
  { (if s.linkOpen then serClose s else s) with err := e, phase := .failed }

/-- Reset, in any phase (70_reset_and_hazards.md R170): every register as in `State.reset`, and the only way out of DONE
and FAILED. What is not the block's stays: the environment's answers, the host's coming inputs, the table and the
other parameters, the free values drawn (log entry 21). -/
def applyReset (s : State) : State :=
  { State.reset with table := s.table, params := s.params, rx := s.rx, host := s.host, drawn := s.drawn }

end Sys2Proof.Machine
end

