-- ==== Sys2Proof/Machine/Operands.lean ====
section
/-! DEFINITION. Payload addressing, field descriptors, the assembly of a field's value from its raw bits
(30_encoding.md R56, R58) and the value a result register stands for (45_field_extract.md R129). -/

namespace Sys2Proof.Machine

/-- The offset of a field in the layout (R17). -/
def fieldOffset (c : ConfigReg) : Field → Offset
  | .pressure => c.pressureOff
  | .temperature => c.tempOff
  | .windSpeed => c.windOff
  | .windBearing => c.bearingOff
  | .humidity => c.humOff
  | .icon => c.iconOff

/-- Whether the layout has the field: only the bearing can be missing (R56, R57). -/
def fieldPresent (c : ConfigReg) : Field → Bool
  | .windBearing => c.bearingEn
  | .pressure | .temperature | .windSpeed | .humidity | .icon => true

/-- The field descriptors of R56. -/
def descriptor (c : ConfigReg) : Field → FieldDesc
  | .pressure => ⟨2, some 0, none, false, -3⟩
  | .temperature => ⟨2, some 0x7FFF, none, c.tempSigned, -1⟩
  | .windSpeed => ⟨1, some 255, none, false, 0⟩
  | .windBearing => ⟨2, some 0, some (360, 0), false, 0⟩
  | .humidity => ⟨1, some 255, none, false, 0⟩
  | .icon => ⟨1, none, none, false, 0⟩

/-- LD.U8: `PayRead(off, 1)`, zero-extended (R36, R120). -/
def loadU8 (s : State) (off : Offset) : Except Fault Half :=
  match readByte s (off.toNat + Config.payloadBase) with
  | .ok v => .ok (v.setWidth 16)
  | .error f => .error f

/-- LD.U16LE: `PayRead(off, 2)` (R36, R121). -/
def loadU16 (s : State) (off : Offset) : Except Fault Half := readHalf s (off.toNat + Config.payloadBase)

/-- Step 1 of R58: the raw bits of a field, as wide as its descriptor says. -/
def fieldRaw (s : State) (f : Field) : Except Fault Half :=
  if (descriptor s.config f).width = 2 then loadU16 s (fieldOffset s.config f) else loadU8 s (fieldOffset s.config f)

/-- Steps 2 to 4 of R58: the sentinel test on the raw bits first, then the normalisation. -/
def assemble (d : FieldDesc) (raw : Half) : XReg :=
  if d.sentinel = some raw then .absent
  else
    match d.normalise with
    | some (v, v') => ⟨true, if raw = v then v' else raw⟩
    | none => ⟨true, raw⟩

/-- The register a field's raw bits give under the layout in force: absent where the layout has no such field (R57). -/
def fieldOfRaw (c : ConfigReg) (f : Field) (raw : Half) : XReg :=
  if fieldPresent c f then assemble (descriptor c f) raw else .absent

/-- The register a field of the frame gives. Where the layout lacks the field no byte is read (R125). -/
def fieldResult (s : State) (f : Field) : Except Fault XReg :=
  if fieldPresent s.config f then
    match fieldRaw s f with
    | .ok raw => .ok (assemble (descriptor s.config f) raw)
    | .error e => .error e
  else .ok .absent

/-- All six fields, in the order of R128. -/
def allFields (s : State) : Except Fault XFile :=
  match fieldResult s .pressure with
  | .error e => .error e
  | .ok p =>
    match fieldResult s .temperature with
    | .error e => .error e
    | .ok t =>
      match fieldResult s .windSpeed with
      | .error e => .error e
      | .ok w =>
        match fieldResult s .windBearing with
        | .error e => .error e
        | .ok b =>
          match fieldResult s .humidity with
          | .error e => .error e
          | .ok h =>
            match fieldResult s .icon with
            | .error e => .error e
            | .ok i => .ok ⟨p, t, w, b, h, i⟩

/-- The exact decimal `mantissa x 10^exponent` (R129). -/
structure Decimal where
  mantissa : Int
  exponent : Int
deriving DecidableEq, Repr

/-- `s16(v)` (R7). -/
def s16 (v : Half) : Int := if v.toNat < 32768 then (v.toNat : Int) else (v.toNat : Int) - 65536

/-- The value a result register stands for; an absent register has none (R129). -/
def fieldValue (c : ConfigReg) (f : Field) (r : XReg) : Option Decimal :=
  if r.valid then
    some ⟨if (descriptor c f).signed then s16 r.raw else (r.raw.toNat : Int), (descriptor c f).exponent⟩
  else none

/-- The entry of FORECAST_TABLE for a code; the first one listed counts (R141; log entry 9). -/
def tableLookup : List (Byte × Label) → Byte → Option Label
  | [], _ => none
  | (k, l) :: rest, code => if k = code then some l else tableLookup rest code

end Sys2Proof.Machine
end

