-- ==== Sys2Proof/Machine/Flags.lean ====
section
/-! DEFINITION. The one-bit tests of the block and the STATUS view. The block has no arithmetic condition codes (R14):
the tests select a next phase or a written value and are not stored. -/

namespace Sys2Proof.Machine

/-- HS.CMP's test: the two bytes read equal ACK (R92). -/
def ackMatches (s : State) : Bool := decide (s.acklen = 2 ∧ [s.ackbuf0, s.ackbuf1] = ackBytes)

/-- DEC.ENV's test over a 100-byte string: B[0], B[1..3], B[96..97] (R54, R110). -/
def shapeMatches (f : List Byte) : Bool := decide (f.take 4 = frameHead ∧ (f.drop 96).take 2 = frameTrailer)

/-- A frame is well-formed when it has 100 bytes, matches the shape, and its payload checksums to 0 under the transform
in force (R54). -/
def frameWellFormed (transform : List CrcOp) (f : List Byte) : Bool :=
  decide (f.length = Config.frameLen) && shapeMatches f &&
    decide (crc16 transform (f.drop Config.payloadBase) 0 = 0)

/-- CRC.CHECK: `CRC.RESULT = 0` (R84). -/
def crcIsZero (s : State) : Bool := decide (s.crc = 0)

/-- BUSY: PHASE is none of IDLE, DONE, FAILED (R15). -/
def busy (s : State) : Bool := decide (s.phase ≠ .idle ∧ s.phase ≠ .done ∧ s.phase ≠ .failed)

/-- STATUS, the host's read-only view, bit 8 down to bit 0: RSVD, LINK_OPEN, FAIL, DONE, BUSY, PHASE (R15). -/
def status (s : State) : BitVec 9 :=
  0#1 ++ BitVec.ofBool s.linkOpen ++ BitVec.ofBool (decide (s.phase = .failed)) ++
    BitVec.ofBool (decide (s.phase = .done)) ++ BitVec.ofBool (busy s) ++ s.phase.code

end Sys2Proof.Machine
end

