-- ==== Sys2Proof/Machine/Acquisition.lean ====
section
/-! DEFINITION. The meanings of the Packet Acquisition's operations (43_acquisition.md R100 to R103). -/

namespace Sys2Proof.Machine

/-- ACQ.REQ (R100). -/
def execAcqReq (s : State) : Result :=
  orFault (serWrite s loop1Bytes) fun s' => .next (s'.goto .acqRead)

/-- FRAME and FRAMELEN after an acquisition read that answered `r`: byte k goes to address k (R32, R101). -/
def State.setFrame (s : State) (r : List Byte) : State :=
  { s with framelen := BitVec.ofNat 7 r.length, frame := Memory.writeFrom s.frame 0 r }

/-- ACQ.READ (R101). -/
def execAcqRead (s : State) : Result :=
  orFault (serRead s Config.frameLen) fun rs => .next ((rs.2.setFrame rs.1).goto .acqClose)

/-- ACQ.CLOSE (R102). -/
def execAcqClose (s : State) : Result := .next ((serClose s).goto .acqLen)

/-- ACQ.LEN (R103). -/
def execAcqLen (s : State) : Result :=
  .next (if s.framelen.toNat < Config.frameLen then raise .incompleteData s else s.goto .decEnv)

end Sys2Proof.Machine
end

