-- ==== Sys2Proof/Machine/Checksum.lean ====
section
/-! DEFINITION. The meanings of the Checksum Engine's operations (41_checksum.md R80 to R84). None writes PHASE: they are
micro-operations (R59). -/

namespace Sys2Proof.Machine

/-- CRC.INIT(init) (R80). -/
def execCrcInit (init : Half) (s : State) : Result := .next (s.setCrc init)

/-- CRC.UPDATE(b) (R81), by the transform in force (R6). -/
def execCrcUpdate (b : Byte) (s : State) : Result := .next (s.setCrc (crcStep s.params.crcStep s.crc b))

/-- CRC.RESULT (R82): returns `{CRC_HI, CRC_LO}` and writes nothing of the block. -/
def execCrcResult (s : State) : Result := .next (s.setRet s.crc)

/-- CRC.CHECK (R84): returns the bit `CRC.RESULT = 0` and writes nothing of the block. -/
def execCrcCheck (s : State) : Result := .next (s.setRet (if crcIsZero s then 1 else 0))

end Sys2Proof.Machine
end

