-- ==== Sys2Proof/Machine/Envelope.lean ====
section
/-! DEFINITION. The meanings of DEC.ENV and DEC.CRC (44_decoder_envelope.md R110, R111). -/

namespace Sys2Proof.Machine

/-- The six bytes DEC.ENV looks at: B[0], B[1..3], B[96..97] (R110). -/
def shapeOf (s : State) : Except Fault Bool :=
  match readBytes s 0 4 with
  | .error f => .error f
  | .ok head =>
    match readBytes s 96 2 with
    | .error f => .error f
    | .ok trailer => .ok (decide (head = frameHead ∧ trailer = frameTrailer))

/-- DEC.ENV (R110). -/
def execDecEnv (s : State) : Result :=
  orFault (shapeOf s) fun shape => .next (if shape then s.goto .decCrc else raise .malformedPacket s)

/-- DEC.CRC (R111): CRC.INIT(0), CRC.UPDATE of P[0] to P[98], then CRC.CHECK. The checksum register keeps the result on
both paths (log entry 13). -/
def execDecCrc (s : State) : Result :=
  orFault (readBytes s Config.payloadBase Config.payloadLen) fun payload =>
    let s' := s.setCrc (crc16 s.params.crcStep payload 0)
    .next (if crcIsZero s' then s'.goto .decFx else raise .malformedPacket s')

end Sys2Proof.Machine
end

