-- ==== Sys2Proof/Machine/Fields.lean ====
section
/-! DEFINITION. The meanings of the loads, the field operations and DEC.FX (45_field_extract.md R120 to R128), and of the
FIELD rows of the opcode table (log entry 17). -/

namespace Sys2Proof.Machine

/-- LD.U8(off) (R120): returns the byte, zero-extended. -/
def execLdU8 (off : Offset) (s : State) : Result := orFault (loadU8 s off) fun v => .next (s.setRet v)

/-- LD.U16LE(off) (R121): returns the little-endian value. -/
def execLdU16le (off : Offset) (s : State) : Result := orFault (loadU16 s off) fun v => .next (s.setRet v)

/-- An FX micro-operation: the field of the frame to its result register (R58). -/
def extractField (f : Field) (s : State) : Result := orFault (fieldResult s f) fun r => .next (s.setX f r)

/-- FX.PRESSURE (R122). -/
def execFxPressure (s : State) : Result := extractField .pressure s

/-- FX.TEMP (R123). -/
def execFxTemp (s : State) : Result := extractField .temperature s

/-- FX.WIND (R124). -/
def execFxWind (s : State) : Result := extractField .windSpeed s

/-- FX.BEARING (R125). -/
def execFxBearing (s : State) : Result := extractField .windBearing s

/-- FX.HUM (R126). -/
def execFxHum (s : State) : Result := extractField .humidity s

/-- FX.ICON (R127). -/
def execFxIcon (s : State) : Result := extractField .icon s

/-- DEC.FX (R128): all six results become visible together. -/
def execDecFx (s : State) : Result :=
  orFault (allFields s) fun x =>
    .next ({ s with x := x }.goto (if s.config.forecastEn then .fcMap else .done))

/-- A FIELD row: the raw bits the row carries go through R58 into the field's register. -/
def acceptField (f : Field) (raw : Half) (s : State) : Result := .next (s.setX f (fieldOfRaw s.config f raw))

/-- FIELD.PRESSURE (R56, R58, R122). -/
def execFieldPressure (raw : Half) (s : State) : Result := acceptField .pressure raw s

/-- FIELD.TEMPERATURE (R56, R58, R123). -/
def execFieldTemperature (raw : Half) (s : State) : Result := acceptField .temperature raw s

/-- FIELD.WIND_SPEED (R56, R58, R124). -/
def execFieldWindSpeed (raw : Byte) (s : State) : Result := acceptField .windSpeed (raw.setWidth 16) s

/-- FIELD.WIND_BEARING (R56, R58, R125). -/
def execFieldWindBearing (raw : Half) (s : State) : Result := acceptField .windBearing raw s

/-- FIELD.HUMIDITY (R56, R58, R126). -/
def execFieldHumidity (raw : Byte) (s : State) : Result := acceptField .humidity (raw.setWidth 16) s

/-- FIELD.ICON (R56, R58, R127). -/
def execFieldIcon (raw : Byte) (s : State) : Result := acceptField .icon (raw.setWidth 16) s

end Sys2Proof.Machine
end

