-- ==== Sys2Proof/Machine/Forecast.lean ====
section
/-! DEFINITION. The meaning of FC.MAP and the hand-off to the Publisher (46_forecast_boundary.md R140 to R142). -/

namespace Sys2Proof.Machine

/-- The icon code FC.MAP looks up, `x[5].raw[7:0]` (R140). -/
def iconCode (s : State) : Byte := lowHalf s.x.icon.raw

/-- FC.MAP (R140): a code outside the table is an error, never a default label. -/
def execFcMap (s : State) : Result :=
  .next
    (match tableLookup s.table (iconCode s) with
     | some l => { s with label := ⟨true, l⟩ }.goto .done
     | none => raise .unknownForecastCode s)

/-- What the Publisher is handed (R142). The icon code is not published. -/
structure Handoff where
  state       : Option Label            -- LABEL, where FORECAST_EN = 1
  pressure    : Option Decimal
  temperature : Option Decimal
  windSpeed   : Option Decimal
  windBearing : Option (Option Decimal) -- none: the layout has no such attribute
  humidity    : Option Decimal
deriving DecidableEq, Repr

/-- The block's output to the Publisher: only in DONE (R142, R175). -/
def handoff (s : State) : Option Handoff :=
  if s.phase = .done then
    some {
      state := if s.config.forecastEn ∧ s.label.valid then some s.label.label else none
      pressure := fieldValue s.config .pressure s.x.pressure
      temperature := fieldValue s.config .temperature s.x.temperature
      windSpeed := fieldValue s.config .windSpeed s.x.windSpeed
      windBearing :=
        if s.config.bearingEn then some (fieldValue s.config .windBearing s.x.windBearing) else none
      humidity := fieldValue s.config .humidity s.x.humidity }
  else none

end Sys2Proof.Machine
end

