-- ==== Sys2Proof/Machine/Handshake.lean ====
section
/-! DEFINITION. The meanings of the Link Handshake's operations (42_handshake.md R90 to R92). -/

namespace Sys2Proof.Machine

/-- `ATTEMPT + 1`. The spec forms the sum only from 0, 1 or 2 (R13); from 3 it is a free value (log entry 7). -/
def nextAttempt (s : State) : BitVec 2 := if s.attempt = 3 then Config.attemptPastThree s.drawn else s.attempt + 1

/-- HS.PROBE (R90). -/
def execHsProbe (s : State) : Result :=
  orFault (serWrite { s with attempt := nextAttempt s } wakeBytes) fun s' => .next (s'.goto .hsRdack)

/-- ACKBUF and ACKLEN after a handshake read that answered `r`; a byte at or beyond ACKLEN is a free value (R19; log
entry 6). -/
def State.setAck (s : State) (r : List Byte) : State :=
  { s with
    acklen := BitVec.ofNat 2 r.length
    ackbuf0 := r.getD 0 (Config.freeByte s.drawn)
    ackbuf1 := r.getD 1 (Config.freeByte (s.drawn + 1))
    drawn := s.drawn + 2 }

/-- HS.RDACK (R91). -/
def execHsRdack (s : State) : Result :=
  orFault (serRead s 2) fun rs => .next ((rs.2.setAck rs.1).goto .hsCmp)

/-- HS.CMP (R92): proceed, retry, or raise StationNotReady after the third attempt. -/
def execHsCmp (s : State) : Result :=
  .next
    (if ackMatches s then s.goto .acqReq
     else if s.attempt.toNat < 3 then s.goto .hsProbe
     else raise .stationNotReady s)

end Sys2Proof.Machine
end

