-- ==== Sys2Proof/Machine/Pipeline.lean ====
section
/-! DEFINITION. The meanings of START, HALT.OK and HALT.ERR (40_pipeline_control.md). -/

namespace Sys2Proof.Machine

/-- START (R70): accepted only in IDLE, ignored in every other phase (D26). -/
def execStart (s : State) : Result :=
  if s.phase = .idle then
    .next { s with
      attempt := 0
      err := .noError
      framelen := 0
      x := .allAbsent
      label := { s.label with valid := false }
      linkOpen := true
      txlog := []
      phase := .hsProbe }
  else .next s

/-- HALT.OK (R73): nothing; PHASE stays. -/
def execHaltOk (s : State) : Result := .next s

/-- HALT.ERR (R74): nothing; PHASE stays. -/
def execHaltErr (s : State) : Result := .next s

end Sys2Proof.Machine
end

