-- ==== Sys2Proof/Machine/Wire.lean ====
section
/-! DEFINITION. The meanings of the wire rows of the opcode table (30_encoding.md R51 to R54; log entries 15 and 16): a
command goes out on the transmit stream, a station's byte string joins the answers to come. None writes PHASE. -/

namespace Sys2Proof.Machine

/-- WAKE, block to station (R51): the byte HS.PROBE sends. -/
def execWake (s : State) : Result := orFault (serWrite s wakeBytes) fun s' => .next s'

/-- LOOP1, block to station (R52): the bytes ACQ.REQ sends. -/
def execLoop1 (s : State) : Result := orFault (serWrite s loop1Bytes) fun s' => .next s'

/-- The station's next answer, after those already listed (R38). -/
def stationAnswers (s : State) (bytes : List Byte) : State := { s with rx := s.rx ++ [bytes] }

/-- ACK, station to block (R53). -/
def execAck (s : State) : Result := .next (stationAnswers s ackBytes)

/-- FRAME, station to block (R54). -/
def execFrame (body : List Byte) (chkHi chkLo : Byte) (s : State) : Result :=
  .next (stationAnswers s (encode (.frame body chkHi chkLo)))

end Sys2Proof.Machine
end

