-- ==== Sys2Proof/Machine/Dispatch.lean ====
section
/-! DEFINITION. One arm per constructor of Instr: the meaning of each row of the opcode table. -/

namespace Sys2Proof.Machine

/-- The effect of one instruction. -/
def exec (i : Instr) (s : State) : Host.Outcome State Fault Refusal :=
  match i with
  | .start => Sys2Proof.Machine.execStart s
  | .hsProbe => Sys2Proof.Machine.execHsProbe s
  | .hsRdack => Sys2Proof.Machine.execHsRdack s
  | .hsCmp => Sys2Proof.Machine.execHsCmp s
  | .acqReq => Sys2Proof.Machine.execAcqReq s
  | .acqRead => Sys2Proof.Machine.execAcqRead s
  | .acqClose => Sys2Proof.Machine.execAcqClose s
  | .acqLen => Sys2Proof.Machine.execAcqLen s
  | .decEnv => Sys2Proof.Machine.execDecEnv s
  | .decCrc => Sys2Proof.Machine.execDecCrc s
  | .crcInit init => Sys2Proof.Machine.execCrcInit init s
  | .crcUpdate b => Sys2Proof.Machine.execCrcUpdate b s
  | .crcResult => Sys2Proof.Machine.execCrcResult s
  | .crcCheck => Sys2Proof.Machine.execCrcCheck s
  | .decFx => Sys2Proof.Machine.execDecFx s
  | .fxPressure => Sys2Proof.Machine.execFxPressure s
  | .fxTemp => Sys2Proof.Machine.execFxTemp s
  | .fxWind => Sys2Proof.Machine.execFxWind s
  | .fxBearing => Sys2Proof.Machine.execFxBearing s
  | .fxHum => Sys2Proof.Machine.execFxHum s
  | .fxIcon => Sys2Proof.Machine.execFxIcon s
  | .ldU8 off => Sys2Proof.Machine.execLdU8 off s
  | .ldU16le off => Sys2Proof.Machine.execLdU16le off s
  | .fcMap => Sys2Proof.Machine.execFcMap s
  | .haltOk => Sys2Proof.Machine.execHaltOk s
  | .haltErr => Sys2Proof.Machine.execHaltErr s
  | .wake => Sys2Proof.Machine.execWake s
  | .loop1 => Sys2Proof.Machine.execLoop1 s
  | .ack => Sys2Proof.Machine.execAck s
  | .frame body chkHi chkLo => Sys2Proof.Machine.execFrame body chkHi chkLo s
  | .fieldPressure raw => Sys2Proof.Machine.execFieldPressure raw s
  | .fieldTemperature raw => Sys2Proof.Machine.execFieldTemperature raw s
  | .fieldWindSpeed raw => Sys2Proof.Machine.execFieldWindSpeed raw s
  | .fieldWindBearing raw => Sys2Proof.Machine.execFieldWindBearing raw s
  | .fieldHumidity raw => Sys2Proof.Machine.execFieldHumidity raw s
  | .fieldIcon raw => Sys2Proof.Machine.execFieldIcon raw s

end Sys2Proof.Machine
end

