-- ==== Sys2Proof/Machine/Sequencer.lean ====
section
/-! DEFINITION. What one step runs: an issued instruction, else the host's command, else the operation of the current
phase (40_pipeline_control.md R71; 10_state.md R25). -/

namespace Sys2Proof.Machine

/-- The instruction that stands at the head of bytes of a format, decoded and run. Bytes after it are dropped, and bytes
that are no instruction of the format are refused: both are the model's choice (log entry 22), since the spec has no
place where such bytes could stand (R60). -/
def runBytes (f : Format) (bytes : List Byte) (s : State) : Result :=
  match decode f bytes with
  | .ok (i, _) => exec i s
  | .error e => .refused (.undecodable e)

/-- The sequencer's step: the operation whose OPID is the phase's (R59, R71). IDLE has none: it waits for START
(R12). -/
def sequencerStep (s : State) : Result :=
  if s.phase = .idle then .next s else runBytes .op [s.phase.opid] s

/-- A host command taken between two operations (R25, R70, R170, R177). CONFIG is written only in IDLE, and only with a
well-formed layout (log entry 18); a write to STATUS is ignored (R15). -/
def hostStep (c : HostCmd) (s : State) : Result :=
  match c with
  | .quiet => sequencerStep s
  | .reset => .next (applyReset s)
  | .start => runBytes .op [0x00#8] s
  | .writeConfig c =>
    if s.phase = .idle then
      if c.wellFormed then .next { s with config := c } else .refused .illFormedConfig
    else .next s
  | .writeStatus _ => .next s

/-- One step of the block. -/
def blockStep (s : State) : Result :=
  match s.issue with
  | some (f, bytes) => runBytes f bytes { s with issue := none }
  | none =>
    match s.host with
    | c :: rest => hostStep c { s with host := rest }
    | [] => sequencerStep s

/-- What the host reads from a register of R25 (a). -/
inductive HostValue where
  | status (v : BitVec 9)
  | err (v : BitVec 3)
  | x (r : XReg)
  | label (r : LabelReg)
deriving DecidableEq, Repr

/-- The host's read of register 0 STATUS, 1 ERR, 2 to 7 X[0] to X[5], 8 LABEL (R25). FRAME has no register: the host
cannot read it (R20). -/
def hostRead (s : State) : Nat → Option HostValue
  | 0 => some (.status (status s))
  | 1 => some (.err (s.err.code s.params.errCodes))
  | 2 => some (.x s.x.pressure)
  | 3 => some (.x s.x.temperature)
  | 4 => some (.x s.x.windSpeed)
  | 5 => some (.x s.x.windBearing)
  | 6 => some (.x s.x.humidity)
  | 7 => some (.x s.x.icon)
  | 8 => some (.label s.label)
  | _ => none

end Sys2Proof.Machine
end

