-- ==== Sys2Proof/Machine/Step.lean ====
section
/-! DEFINITION. One step of the block, and how a table word is put where the next step fetches it. -/

namespace Sys2Proof.Machine

/-- One step. -/
def step (s : State) : Host.Outcome State Fault Refusal := blockStep s

/-- The state with a table word's instruction in the issue slot, where the next step fetches first; nothing else changes
(log entry 2). A word of no row stands there as bytes that the next step refuses (log entry 22). -/
def State.withFetchWord (s : State) (nbits w : Nat) : State :=
  { s with issue := some (fetchWord nbits w) }

end Sys2Proof.Machine
end

