-- ==== Sys2Proof/Machine/Run.lean ====
section
/-! DEFINITION. The pseudo-operations DECODE (44_decoder_envelope.md R112) and RUN (40_pipeline_control.md R75) as pure
functions of byte strings, written from those two rules and not from the step machine. To an ill-formed layout the spec
gives no meaning and asks the model to refuse it (R17, U7, D23); the step machine does (`hostStep`), while these
functions, which have no refusal, are total and take a free value for a byte that does not exist: the model's choice
(log entry 28). Every statement about them has a well-formed layout as a premise. -/

namespace Sys2Proof.Machine

/-- `P[off]` of a byte string that starts at the payload. An offset beyond it, which only an ill-formed layout has,
gives a free value: DESIGN CHOICE (log entry 28). -/
def payloadByte (p : List Byte) (off : Nat) : Nat := (p.getD off (Config.beyondPayload off)).toNat

/-- `raw` of R58 step 1 for a field of a layout. -/
def payloadRaw (p : List Byte) (c : ConfigReg) (f : Field) : Nat :=
  match f with
  | .pressure => payloadByte p c.pressureOff.toNat + 256 * payloadByte p (c.pressureOff.toNat + 1)
  | .temperature => payloadByte p c.tempOff.toNat + 256 * payloadByte p (c.tempOff.toNat + 1)
  | .windSpeed => payloadByte p c.windOff.toNat
  | .windBearing => payloadByte p c.bearingOff.toNat + 256 * payloadByte p (c.bearingOff.toNat + 1)
  | .humidity => payloadByte p c.humOff.toNat
  | .icon => payloadByte p c.iconOff.toNat

/-- A present register that holds a number. -/
def present (n : Nat) : XReg := ⟨true, BitVec.ofNat 16 n⟩

/-- `fields(P, LAYOUT)`: the six field rules R122 to R127, on numbers. -/
def fieldsOf (p : List Byte) (c : ConfigReg) : XFile where
  pressure := if payloadRaw p c .pressure = 0 then .absent else present (payloadRaw p c .pressure)
  temperature := if payloadRaw p c .temperature = 32767 then .absent else present (payloadRaw p c .temperature)
  windSpeed := if payloadRaw p c .windSpeed = 255 then .absent else present (payloadRaw p c .windSpeed)
  windBearing :=
    if c.bearingEn = false then .absent
    else if payloadRaw p c .windBearing = 0 then .absent
    else if payloadRaw p c .windBearing = 360 then present 0
    else present (payloadRaw p c .windBearing)
  humidity := if payloadRaw p c .humidity = 255 then .absent else present (payloadRaw p c .humidity)
  icon := present (payloadRaw p c .icon)

/-- `decode(f, LAYOUT)` (R112) under a transform, on a byte string of any length. The spec gives it no meaning under an
ill-formed layout; what it answers there rests on free values (log entry 28). -/
def decodePacket (transform : List CrcOp) (f : List Byte) (c : ConfigReg) : Except ErrCode XFile :=
  if f.length ≠ 100 then .error .malformedPacket
  else if shapeMatches f = false then .error .malformedPacket
  else if crc16 transform (f.drop 1) 0 ≠ 0 then .error .malformedPacket
  else .ok (fieldsOf (f.drop 1) c)

/-- What RUN gives (R75): the terminal phase, ERR, X, LABEL, TXLOG and the number of answers consumed. -/
structure RunResult where
  phase : Phase
  err   : ErrCode
  x     : XFile
  label : Option Label
  txlog : List Byte
  reads : Nat
deriving DecidableEq, Repr

/-- The part of RUN from the label `acquire` on, after `reads` answers and the bytes `sent`. -/
def runAcquire (transform : List CrcOp) (c : ConfigReg) (table : List (Byte × Label)) (sent : List Byte)
    (reads : Nat) (answer : List Byte) : RunResult :=
  let f := answer.take 100
  let tx := sent ++ loop1Bytes
  if f.length < 100 then ⟨.failed, .incompleteData, .allAbsent, none, tx, reads + 1⟩
  else
    match decodePacket transform f c with
    | .error e => ⟨.failed, e, .allAbsent, none, tx, reads + 1⟩
    | .ok x =>
      if c.forecastEn then
        match tableLookup table (lowHalf x.icon.raw) with
        | none => ⟨.failed, .unknownForecastCode, x, none, tx, reads + 1⟩
        | some l => ⟨.done, .noError, x, some l, tx, reads + 1⟩
      else ⟨.done, .noError, x, none, tx, reads + 1⟩

/-- The handshake loop of RUN with `left` attempts to go. -/
def runHandshake (transform : List CrcOp) (c : ConfigReg) (table : List (Byte × Label)) :
    Nat → List Byte → Nat → List (List Byte) → RunResult
  | 0, sent, reads, _ => ⟨.failed, .stationNotReady, .allAbsent, none, sent, reads⟩
  | left + 1, sent, reads, answers =>
    let sent' := sent ++ wakeBytes
    if (answers.headD []).take 2 = ackBytes then
      runAcquire transform c table sent' (reads + 1) (answers.tail.headD [])
    else runHandshake transform c table left sent' (reads + 1) answers.tail

/-- RUN(CONFIG, TABLE, answers) (R75) under a transform: a function of transform, configuration, table and answers
only. It looks at no more than four answers; a missing one counts as the empty string, and an ill-formed layout, to which the
spec gives no meaning, gets an answer that rests on free values: the model's choices (log entry 28). -/
def runBlock (transform : List CrcOp) (c : ConfigReg) (table : List (Byte × Label)) (answers : List (List Byte)) :
    RunResult :=
  runHandshake transform c table 3 [] 0 answers

end Sys2Proof.Machine
end

