-- ==== Sys2Proof/Safety.lean ====
section
/-! DEFINITION. What holds in every state a run reaches (10_state.md R27, 60_exceptions.md, 70_reset_and_hazards.md), in
the terms the statements use. -/

namespace Sys2Proof.Machine

/-- The phases between START and the close (R71): the ones that find the link open. -/
def Phase.linkPhase : Phase → Bool
  | .hsProbe | .hsRdack | .hsCmp | .acqReq | .acqRead | .acqClose => true
  | .idle | .acqLen | .decEnv | .decCrc | .decFx | .fcMap | .done | .failed => false

/-- Before the acquisition read. -/
def Phase.beforeRead : Phase → Bool
  | .idle | .hsProbe | .hsRdack | .hsCmp | .acqReq | .acqRead => true
  | .acqClose | .acqLen | .decEnv | .decCrc | .decFx | .fcMap | .done | .failed => false

/-- Terminal phases (R73, R74). -/
def Phase.terminal : Phase → Bool
  | .done | .failed => true
  | .idle | .hsProbe | .hsRdack | .hsCmp | .acqReq | .acqRead | .acqClose | .acqLen | .decEnv | .decCrc | .decFx
  | .fcMap => false

/-- The handshake succeeded in this run. -/
def State.acked (s : State) : Prop :=
  s.phase ∈ [.acqReq, .acqRead, .acqClose, .acqLen, .decEnv, .decCrc, .decFx, .fcMap, .done] ∨
    (s.phase = .failed ∧ s.err ≠ .stationNotReady)

/-- The request has been sent in this run. -/
def State.requested (s : State) : Prop :=
  s.phase ∈ [.acqRead, .acqClose, .acqLen, .decEnv, .decCrc, .decFx, .fcMap, .done] ∨
    (s.phase = .failed ∧ s.err ≠ .stationNotReady)

/-- The acquisition read has given 100 bytes in this run. -/
def State.complete (s : State) : Prop :=
  s.phase ∈ [.decEnv, .decCrc, .decFx, .fcMap, .done] ∨
    (s.phase = .failed ∧ (s.err = .malformedPacket ∨ s.err = .unknownForecastCode))

/-- The frame has passed DEC.ENV and DEC.CRC in this run: it is a ValidatedPayload (R55). -/
def State.validated (s : State) : Prop :=
  s.phase ∈ [.decFx, .fcMap, .done] ∨ (s.phase = .failed ∧ s.err = .unknownForecastCode)

/-- DEC.FX has written X in this run. -/
def State.measured (s : State) : Prop :=
  s.phase ∈ [.fcMap, .done] ∨ (s.phase = .failed ∧ s.err = .unknownForecastCode)

/-- Clauses (e) and (f) of R27: an absent register reads 0, a valid one never holds its field's sentinel. -/
structure XFile.Clean (x : XFile) : Prop where
  pressure    : (x.pressure.valid = false → x.pressure.raw = 0) ∧ (x.pressure.valid = true → x.pressure.raw ≠ 0)
  temperature : (x.temperature.valid = false → x.temperature.raw = 0) ∧
    (x.temperature.valid = true → x.temperature.raw ≠ 0x7FFF)
  windSpeed   : (x.windSpeed.valid = false → x.windSpeed.raw = 0) ∧
    (x.windSpeed.valid = true → x.windSpeed.raw.toNat ≤ 254)
  windBearing : (x.windBearing.valid = false → x.windBearing.raw = 0) ∧
    (x.windBearing.valid = true → x.windBearing.raw ≠ 360)
  humidity    : (x.humidity.valid = false → x.humidity.raw = 0) ∧
    (x.humidity.valid = true → x.humidity.raw.toNat ≤ 254)
  icon        : (x.icon.valid = false → x.icon.raw = 0) ∧ (x.icon.valid = true → x.icon.raw.toNat ≤ 255)

/-- The bytes of FRAME as they stand, those without a value counting as 0; used only where all 100 have one. -/
def State.frameBytes (s : State) : List Byte :=
  (List.range 100).map fun a => (Memory.lookup s.frame a).getD 0

/-- What every state that a run reaches satisfies: R27 (a) to (h), with what each clause needs to be kept by a step. -/
structure Inv (s : State) : Prop where
  /-- Nothing is issued from outside the sequencer: the slot is the model's own. -/
  noIssue    : s.issue = none
  /-- FRAME is in canonical form. -/
  frameWf    : Memory.wf s.frame = true
  /-- FRAMELEN is 0 to 100 (R20), and the bytes below it have a value. -/
  frameLen   : s.framelen.toNat ≤ 100
  frameFull  : ∀ a < s.framelen.toNat, (Memory.lookup s.frame a).isSome
  /-- CONFIG is well-formed (R17, R171). -/
  configWf   : s.config.wellFormed = true
  /-- The table maps icon 8 to "sunny" (R141). -/
  tableSunny : tableLookup s.table 8 = some .sunny
  /-- The transform is what R86 binds every transform to. -/
  transform  : crcWellFormed s.params.crcStep = true
  /-- The ERR codes tell the conditions apart (R16, R150). -/
  codes      : s.params.errCodes.wellFormed = true
  /-- R27 (b), and the link is open from START to the close. -/
  link       : s.linkOpen = s.phase.linkPhase
  /-- R27 (c). -/
  error      : s.err ≠ .noError ↔ s.phase = .failed
  /-- R19. -/
  acklen     : s.acklen.toNat ≤ 2
  /-- R27 (g), first half, with what each phase knows of ATTEMPT (R13, R90, R151). -/
  attemptIdle  : s.phase = .idle → s.attempt = 0
  attemptProbe : s.phase = .hsProbe → s.attempt.toNat ≤ 2
  attemptRun   : s.phase ≠ .idle → s.phase ≠ .hsProbe → 1 ≤ s.attempt.toNat
  attemptOut   : s.err = .stationNotReady → s.attempt = 3
  /-- R27 (g), second half, and (h): TXLOG is ATTEMPT wake bytes, then the request if it was sent. -/
  sentWake   : ¬ s.requested → s.txlog = List.replicate s.attempt.toNat 0x0A#8
  sentAll    : s.requested → s.txlog = List.replicate s.attempt.toNat 0x0A#8 ++ loop1Bytes
  /-- R27 (h): past the handshake, the last handshake read equalled ACK. -/
  acked      : s.acked → ackMatches s = true
  /-- The length test (R103). -/
  unread     : s.phase.beforeRead = true → s.framelen = 0
  short      : s.err = .incompleteData → s.framelen.toNat < 100
  complete   : s.complete → s.framelen = 100
  /-- "never constructed except when the checksum holds" (R55, R113). -/
  shape      : s.phase = .decCrc ∨ s.validated → shapeMatches s.frameBytes = true
  residue    : s.validated → crc16 s.params.crcStep (s.frameBytes.drop 1) 0 = 0
  /-- R27 (d). -/
  unmeasured : ¬ s.measured → s.x = .allAbsent
  /-- X holds what R122 to R127 give for the frame (R128). -/
  measured   : s.measured → s.x = fieldsOf (s.frameBytes.drop 1) s.config
  /-- R27 (e), (f). -/
  clean      : s.x.Clean
  /-- FC.MAP runs only where FORECAST_EN = 1 (R71). -/
  mapping    : s.phase = .fcMap ∨ s.err = .unknownForecastCode → s.config.forecastEn = true
  /-- LABEL (R14, R21, R140). -/
  labelled   : s.label.valid = true → s.phase = .done ∧ s.config.forecastEn = true
  forecast   : s.phase = .done → s.config.forecastEn = true →
    s.label.valid = true ∧ tableLookup s.table (iconCode s) = some s.label.label
  unknown    : s.err = .unknownForecastCode → tableLookup s.table (iconCode s) = none

/-- A host input the model accepts: anything but an ill-formed layout (R17, D23). -/
def HostCmd.accepted : HostCmd → Bool
  | .writeConfig c => c.wellFormed
  | .quiet | .reset | .start | .writeStatus _ => true

end Sys2Proof.Machine
end

