-- ==== Sys2Proof/Certificates/Slice0/Obligations.lean ====
section
/-! DEFINITION. The statements for the provers, in the order of OBLIGATIONS.json. Where a statement rests on a value or a
behaviour that the spec marks as its own decision, or that the model chose, its docstring says so. -/

open Sys2Proof Sys2Proof.Machine

/-! ### Reset, the host, and what a step runs -/

/-- Reset (10_state.md R26, 70_reset_and_hazards.md R170): what the table of R26 gives a value. These values are the
spec's own decision D15. FRAME has no value anywhere. The parameters have R6's defaults: that they stand in the state,
the transform as the lines of R81, is the model's choice (log entry 29). -/
def Obligations.ResetStateHoldsTheSpecsValues : Prop :=
  State.reset.phase = .idle ∧ State.reset.attempt = 0 ∧ State.reset.linkOpen = false ∧
  State.reset.err.code State.reset.params.errCodes = 0 ∧
  State.reset.params = ⟨[⟨.x, .x, .right, 4⟩, ⟨.y, .x, .right, 3⟩, ⟨.y, .x, .left, 4⟩, ⟨.x, .x, .left, 5⟩],
    ⟨1, 2, 3, 4⟩⟩ ∧
  (∀ f, State.reset.x.get f = ⟨false, 0⟩) ∧ State.reset.label.valid = false ∧ State.reset.framelen = 0 ∧
  (∀ a < 100, readByte State.reset a = .error .frameUnspecified) ∧
  State.reset.config = ⟨7, 12, 14, true, 16, 32, 89, true, true⟩ ∧ status State.reset = 0

/-- R27 at reset. -/
def Obligations.ResetStateMeetsTheInvariant : Prop := Inv State.reset

/-- R170: a host reset in any phase gives the reset state, whatever the run was; the environment's answers, the host's
coming inputs, the table and the other parameters are not the block's (log entry 21). -/
def Obligations.HostResetAbandonsTheRunInAnyPhase : Prop :=
  ∀ (s : State) (rest : List HostCmd), s.issue = none → s.host = .reset :: rest →
    step s = .next { State.reset with
      table := s.table, params := s.params, rx := s.rx, host := rest, drawn := s.drawn }

/-- R17, R177: CONFIG takes a host write in IDLE and keeps its value in every other phase; an ill-formed layout is
refused (D23, log entry 18); a write to STATUS is ignored (R15). -/
def Obligations.HostWritesActOnlyOnConfigInIdle : Prop :=
  ∀ (s : State) (c : ConfigReg) (v : BitVec 9) (rest : List HostCmd), s.issue = none →
    (s.host = .writeConfig c :: rest → s.phase = .idle → c.wellFormed = true →
      step s = .next { s with host := rest, config := c }) ∧
    (s.host = .writeConfig c :: rest → s.phase = .idle → c.wellFormed = false →
      step s = .refused .illFormedConfig) ∧
    (s.host = .writeConfig c :: rest → s.phase ≠ .idle → step s = .next { s with host := rest }) ∧
    (s.host = .writeStatus v :: rest → step s = .next { s with host := rest })

/-- An issued instruction is the one the step runs, with its operands (log entry 2); the host's START is the
instruction START (R70); what the decoder reads from a table word is what the step after `withFetchWord` runs (log
entry 4), and a word it reads nothing from is refused, the model's choice (log entry 22). -/
def Obligations.StepRunsTheDecodedInstruction : Prop :=
  (∀ (s : State) (i : Instr) (rest : List Byte), i.wellFormed = true → s.issue = some (i.format, encode i ++ rest) →
    step s = exec i { s with issue := none }) ∧
  (∀ (s : State) (rest : List HostCmd), s.issue = none → s.host = .start :: rest →
    step s = exec .start { s with host := rest }) ∧
  (∀ (s : State) (nbits w : Nat) (i : Instr), decodeTableWord nbits w = some i →
    step (s.withFetchWord nbits w) = exec i { s with issue := none }) ∧
  (∀ (s : State) (nbits w : Nat), decodeTableWord nbits w = none →
    ∃ e, step (s.withFetchWord nbits w) = .refused (.undecodable e))

/-- R12, R71: with nothing issued and the host quiet, a step runs the operation of PHASE; IDLE waits. The host is quiet
where its list is empty, and where the list's first entry says so, which the step takes off (log entry 1); `r` is the
state the operation finds. -/
def Obligations.StepRunsTheOperationOfThePhase : Prop :=
  ∀ s r : State, s.issue = none →
    ((s.host = [] ∧ r = s) ∨ ∃ rest, s.host = .quiet :: rest ∧ r = { s with host := rest }) →
    (s.phase = .idle → step s = .next r) ∧
    (s.phase = .hsProbe → step s = exec .hsProbe r) ∧
    (s.phase = .hsRdack → step s = exec .hsRdack r) ∧
    (s.phase = .hsCmp → step s = exec .hsCmp r) ∧
    (s.phase = .acqReq → step s = exec .acqReq r) ∧
    (s.phase = .acqRead → step s = exec .acqRead r) ∧
    (s.phase = .acqClose → step s = exec .acqClose r) ∧
    (s.phase = .acqLen → step s = exec .acqLen r) ∧
    (s.phase = .decEnv → step s = exec .decEnv r) ∧
    (s.phase = .decCrc → step s = exec .decCrc r) ∧
    (s.phase = .decFx → step s = exec .decFx r) ∧
    (s.phase = .fcMap → step s = exec .fcMap r) ∧
    (s.phase = .done → step s = exec .haltOk r) ∧
    (s.phase = .failed → step s = exec .haltErr r)

/-! ### Encodings -/

/-- Every well-formed instruction is read back from its encoding, with every operand, whatever follows it. -/
def Obligations.DecodeInvertsEncode : Prop :=
  ∀ (i : Instr) (rest : List Byte), i.wellFormed = true → decode i.format (encode i ++ rest) = .ok (i, rest)

/-- What the decoder accepts is the encoding of a well-formed instruction of that format: no other bytes are read as an
instruction (R60). -/
def Obligations.DecodeAcceptsOnlyEncodings : Prop :=
  ∀ (f : Format) (bytes rest : List Byte) (i : Instr), decode f bytes = .ok (i, rest) →
    bytes = encode i ++ rest ∧ i.wellFormed = true ∧ i.format = f

/-- Words written out from the tables of R51 to R54, R56 and R59, one or more of each family, and OPIDs outside the
table. The four words of two bytes that begin with 92, A8 or A9 are the model's choice past their OPID: R59 gives an
OPID 8 bits and no place for operands, and the operand byte stands after it by log entry 3. -/
def Obligations.SpecWordsDecodeAsTabulated : Prop :=
  decode .op [0x00#8] = .ok (.start, []) ∧
  decode .op [0x20#8] = .ok (.hsRdack, []) ∧
  decode .op [0x70#8] = .ok (.acqLen, []) ∧
  decode .op [0x90#8] = .ok (.decCrc, []) ∧
  decode .op [0x92#8, 0x4C#8] = .ok (.crcUpdate 0x4C, []) ∧
  decode .op [0xA4#8] = .ok (.fxBearing, []) ∧
  decode .op [0xA8#8, 98#8] = .ok (.ldU8 98, []) ∧
  decode .op [0xA8#8, 99#8] = .error (.offsetRange 99) ∧
  decode .op [0xA9#8, 97#8] = .ok (.ldU16le 97, []) ∧
  decode .op [0xB0#8] = .ok (.fcMap, []) ∧
  decode .op [0x95#8] = .error (.noOperation 0x95) ∧
  decode .op [0xE0#8] = .error (.noOperation 0xE0) ∧
  decode .wireTx [0x4C#8, 0x4F#8, 0x4F#8, 0x50#8, 0x20#8, 0x31#8, 0x0A#8] = .ok (.loop1, []) ∧
  decode .wireRxAck [0x0A#8, 0x0D#8] = .ok (.ack, []) ∧
  decode .wireRxAck [0x0D#8, 0x0A#8] = .error .notAck ∧
  decode (.field .pressure) [0xAD#8, 0x75#8] = .ok (.fieldPressure 30125, [])

/-! ### Pipeline control -/

/-- START (R70), and that it is ignored outside IDLE (D26). -/
def Obligations.StartOpensARunFromIdleOnly : Prop :=
  ∀ s : State,
    (s.phase = .idle → exec .start s = .next { s with
      attempt := 0, err := .noError, framelen := 0, x := .allAbsent, label := ⟨false, s.label.label⟩,
      linkOpen := true, txlog := [], phase := .hsProbe }) ∧
    (s.phase ≠ .idle → exec .start s = .next s)

/-- HALT.OK and HALT.ERR (R73, R74): nothing is written. -/
def Obligations.HaltsChangeNothing : Prop := ∀ s : State, exec .haltOk s = .next s ∧ exec .haltErr s = .next s

/-- R73, R74, R179: DONE and FAILED are stable for any number of steps, and a START there changes nothing; only reset
leaves them. -/
def Obligations.TerminalPhasesAreLeftOnlyByReset : Prop :=
  ∀ s : State, s.issue = none → s.phase.terminal = true →
    (s.host = [] → ∀ n, core.run n s = .next s) ∧
    (∀ c rest t, s.host = c :: rest → step s = .next t → c = .reset ∨ t = { s with host := rest })

/-- The transition table of R71: with nothing issued and the host quiet, its list empty or beginning with `quiet` (log
entry 1), the next PHASE of every phase. -/
def Obligations.PhaseFollowsTheTransitionTable : Prop :=
  ∀ s t : State, s.issue = none → (s.host = [] ∨ ∃ rest, s.host = .quiet :: rest) → step s = .next t →
    match s.phase with
    | .idle => t.phase = .idle
    | .hsProbe => t.phase = .hsRdack
    | .hsRdack => t.phase = .hsCmp
    | .hsCmp =>
      t.phase = (if s.acklen = 2 ∧ s.ackbuf0 = 0x0A ∧ s.ackbuf1 = 0x0D then .acqReq
        else if s.attempt = 3 then .failed else .hsProbe)
    | .acqReq => t.phase = .acqRead
    | .acqRead => t.phase = .acqClose
    | .acqClose => t.phase = .acqLen
    | .acqLen => t.phase = (if s.framelen.toNat < 100 then .failed else .decEnv)
    | .decEnv => ∀ f, readBytes s 0 100 = .ok f → t.phase = (if shapeMatches f then .decCrc else .failed)
    | .decCrc =>
      ∀ f, readBytes s 0 100 = .ok f →
        t.phase = (if crc16 s.params.crcStep (f.drop 1) 0 = 0 then .decFx else .failed)
    | .decFx => t.phase = (if s.config.forecastEn then .fcMap else .done)
    | .fcMap => t.phase = (if (tableLookup s.table (iconCode s)).isSome then .done else .failed)
    | .done => t.phase = .done
    | .failed => t.phase = .failed

/-- `raise E` (R157): the link is closed if it was open, ERR and PHASE are written, nothing else is; the error codes are
those of R150 (D9) by default, and codes that are well-formed tell the conditions apart. That X and the rest are kept is
D16. -/
def Obligations.RaiseRecordsTheErrorAndFails : Prop :=
  (∀ (e : ErrCode) (s : State), raise e s = { s with linkOpen := false, err := e, phase := .failed }) ∧
  (∀ codes : ErrCodes, ErrCode.noError.code codes = 0 ∧
    (codes.wellFormed = true → ∀ e e' : ErrCode, e.code codes = e'.code codes → e = e')) ∧
  ErrCodes.default.wellFormed = true ∧ ErrCode.stationNotReady.code .default = 1 ∧
  ErrCode.incompleteData.code .default = 2 ∧ ErrCode.malformedPacket.code .default = 3 ∧
  ErrCode.unknownForecastCode.code .default = 4

/-! ### Checksum Engine -/

/-- CRC.INIT(init) (R80): the halves of `init`; nothing else changes. -/
def Obligations.CrcInitLoadsTheRegister : Prop :=
  ∀ (s : State) (init : Half), exec (.crcInit init) s = .next { s with
    crcHi := BitVec.ofNat 8 (init.toNat / 256), crcLo := BitVec.ofNat 8 (init.toNat % 256) }

/-- CRC.UPDATE(b) (R81): under the default transform it is R81's lines, and eight steps of the bit-serial division by
0x1021 on `{CRC_HI, CRC_LO}`; nothing else changes. The default transform is the spec's decision D1; that a transform is
a list of lines is the model's form of the parameter (R6, U18; log entry 29). -/
def Obligations.CrcUpdateIsTheBitSerialDivision : Prop :=
  ∀ (s : State) (b : Byte), ∃ t, exec (.crcUpdate b) s = .next t ∧
    t = { s with crcHi := t.crcHi, crcLo := t.crcLo } ∧
    (s.params.crcStep = Params.default.crcStep →
      (t.crcHi, t.crcLo) = crcStepHalves s.crcHi s.crcLo b ∧
      halves t.crcHi t.crcLo = crcStepSerial (halves s.crcHi s.crcLo) b)

/-- What R86 fixes of every transform, the default or another: the byte is XORed against the most-significant half, so
that CRC.UPDATE(b) does what CRC.UPDATE(0) does with `b` XORed into CRC_HI; and one whose form is R86's, with what the
model asks of it for R85 (a) and (b) (log entry 29), takes a register whose high half is `b` to `{CRC_LO, 0x00}`, and no
two registers to one. The default is such a transform. -/
def Obligations.EveryTransformKeepsWhatTheSourceFixes : Prop :=
  crcWellFormed Params.default.crcStep = true ∧
  (∀ (s : State) (b : Byte), ∃ t u, exec (.crcUpdate b) s = .next t ∧
    exec (.crcUpdate 0) { s with crcHi := s.crcHi ^^^ b } = .next u ∧ t.crcHi = u.crcHi ∧ t.crcLo = u.crcLo) ∧
  (∀ s : State, crcWellFormed s.params.crcStep = true →
    exec (.crcUpdate s.crcHi) s = .next { s with crcHi := s.crcLo, crcLo := 0 }) ∧
  (∀ (s s' t t' : State) (b : Byte), crcWellFormed s.params.crcStep = true → s.params = s'.params →
    exec (.crcUpdate b) s = .next t → exec (.crcUpdate b) s' = .next t' → t.crcHi = t'.crcHi → t.crcLo = t'.crcLo →
    s.crcHi = s'.crcHi ∧ s.crcLo = s'.crcLo)

/-- CRC.RESULT (R82) returns 256 x CRC_HI + CRC_LO, CRC.CHECK (R84) whether that is 0; neither writes anything of the
block. Where the returned value is kept is the model's own (log entry 14). -/
def Obligations.ChecksumReadsReturnTheRegister : Prop :=
  ∀ s : State,
    exec .crcResult s = .next { s with ret := BitVec.ofNat 16 (256 * s.crcHi.toNat + s.crcLo.toNat) } ∧
    exec .crcCheck s = .next { s with ret := if 256 * s.crcHi.toNat + s.crcLo.toNat = 0 then 1 else 0 }

/-- R85 (a), (e), under every well-formed transform (R86; log entry 29), R81's being one: a message followed by two
bytes checksums to 0 exactly when they are its checksum, high half first. -/
def Obligations.ZeroResidueMeansTheTrailerIsTheChecksum : Prop :=
  ∀ (transform : List CrcOp) (m : List Byte) (h l : Byte), crcWellFormed transform = true →
    (crc16 transform (m ++ [h, l]) 0 = 0 ↔ halves h l = crc16 transform m 0)

/-- R85 (b), under every well-formed transform (R86; log entry 29): a single flipped bit, anywhere in a byte string of
any length, makes a zero checksum non-zero. -/
def Obligations.EverySingleBitErrorIsDetected : Prop :=
  ∀ (transform : List CrcOp) (p q : List Byte) (b : Byte) (k : Nat), crcWellFormed transform = true → k < 8 →
    crc16 transform (p ++ b :: q) 0 = 0 → crc16 transform (p ++ (b ^^^ (1#8 <<< k)) :: q) 0 ≠ 0

/-- Chaining, R85 (c), under every transform, since it rests on R83 alone; and linearity over strings of one length.
Linearity is R85 (d) for the transform of R81 only (D1), and R86 does not bind it: that it holds under every transform
rests on the model's choice to write CRC_STEP as shift-and-XOR lines (log entry 29). -/
def Obligations.ChecksumChainsAndIsLinear : Prop :=
  (∀ (transform : List CrcOp) (a b : List Byte) (init : Half),
    crc16 transform (a ++ b) init = crc16 transform b (crc16 transform a init)) ∧
  (∀ (transform : List CrcOp) (a b : List Byte), a.length = b.length →
    crc16 transform (List.zipWith (· ^^^ ·) a b) 0 = crc16 transform a 0 ^^^ crc16 transform b 0)

/-! ### Link Handshake -/

/-- HS.PROBE (R90): ATTEMPT counts up and one WAKE byte is sent; nothing else changes. From ATTEMPT = 3, which no run
meets, the count is a free value (log entry 7). -/
def Obligations.ProbeCountsTheAttemptAndSendsWake : Prop :=
  ∀ s : State, s.linkOpen = true → ∃ t, exec .hsProbe s = .next t ∧
    t = { s with attempt := t.attempt, txlog := s.txlog ++ [0x0A#8], phase := .hsRdack } ∧
    (s.attempt.toNat ≤ 2 → t.attempt.toNat = s.attempt.toNat + 1)

/-- HS.RDACK (R91): one answer of at most two bytes, its length in ACKLEN and its bytes in ACKBUF; a listed answer is
the one read. Only ACKBUF, ACKLEN, PHASE and the inputs change. -/
def Obligations.ReadAckStoresTheAnswer : Prop :=
  ∀ s : State, s.linkOpen = true → ∃ r t, exec .hsRdack s = .next t ∧ r.length ≤ 2 ∧
    t = { s with ackbuf0 := t.ackbuf0, ackbuf1 := t.ackbuf1, acklen := t.acklen, rx := s.rx.tail, drawn := t.drawn,
                 phase := .hsCmp } ∧
    t.acklen.toNat = r.length ∧ (∀ k (hk : k < r.length), [t.ackbuf0, t.ackbuf1][k]? = some r[k]) ∧
    (∀ a rest, s.rx = a :: rest → r = a.take 2)

/-- HS.CMP (R92): the three outcomes, each with all it changes. -/
def Obligations.CompareProceedsRetriesOrFails : Prop :=
  ∀ s : State,
    (s.acklen = 2 ∧ s.ackbuf0 = 0x0A ∧ s.ackbuf1 = 0x0D → exec .hsCmp s = .next { s with phase := .acqReq }) ∧
    (¬ (s.acklen = 2 ∧ s.ackbuf0 = 0x0A ∧ s.ackbuf1 = 0x0D) → s.attempt.toNat < 3 →
      exec .hsCmp s = .next { s with phase := .hsProbe }) ∧
    (¬ (s.acklen = 2 ∧ s.ackbuf0 = 0x0A ∧ s.ackbuf1 = 0x0D) → s.attempt.toNat = 3 →
      exec .hsCmp s = .next { s with linkOpen := false, err := .stationNotReady, phase := .failed })

/-- R93: with ACK on the Nth answer, N at most 3, the handshake leaves for ACQ_REQ after N probes and N answers. -/
def Obligations.HandshakeSucceedsAtTheFirstAck : Prop :=
  ∀ (s : State) (n : Nat), s.issue = none → s.host = [] → s.phase = .hsProbe → s.attempt = 0 → s.linkOpen = true →
    s.txlog = [] → n < 3 → n < s.rx.length →
    (∀ k < n, (s.rx.getD k []).take 2 ≠ [0x0A#8, 0x0D#8]) → (s.rx.getD n []).take 2 = [0x0A#8, 0x0D#8] →
    ∃ t, core.run (3 * (n + 1)) s = .next t ∧ t.phase = .acqReq ∧ t.linkOpen = true ∧ t.attempt.toNat = n + 1 ∧
      t.txlog = List.replicate (n + 1) 0x0A#8 ∧ t.rx = s.rx.drop (n + 1)

/-- R93, R151, R174 (a), (b): with no ACK in three answers the run fails with the link closed, after three WAKE bytes,
and no byte is ever sent again. -/
def Obligations.HandshakeFailsAfterThreeAttempts : Prop :=
  ∀ (s : State) (n : Nat), s.issue = none → s.host = [] → s.phase = .hsProbe → s.attempt = 0 → s.linkOpen = true →
    s.txlog = [] → 3 ≤ s.rx.length → (∀ k < 3, (s.rx.getD k []).take 2 ≠ [0x0A#8, 0x0D#8]) →
    ∃ t, core.run (9 + n) s = .next t ∧ t.phase = .failed ∧ t.err = .stationNotReady ∧ t.linkOpen = false ∧
      t.attempt = 3 ∧ t.txlog = [0x0A#8, 0x0A#8, 0x0A#8] ∧ t.rx = s.rx.drop 3

/-! ### Packet Acquisition -/

/-- ACQ.REQ (R100): the seven bytes of "LOOP 1" and a line feed, once; nothing else changes. -/
def Obligations.RequestSendsLoopOnce : Prop :=
  ∀ s : State, s.linkOpen = true → exec .acqReq s = .next { s with
    txlog := s.txlog ++ [0x4C#8, 0x4F#8, 0x4F#8, 0x50#8, 0x20#8, 0x31#8, 0x0A#8], phase := .acqRead }

/-- ACQ.READ (R101): one answer of at most 100 bytes; FRAMELEN is its length, byte k of it stands at address k, and
every address at or beyond FRAMELEN has no value (R20). Only FRAME, FRAMELEN, PHASE and the inputs change. -/
def Obligations.AcquisitionReadFillsTheFrame : Prop :=
  ∀ s : State, s.linkOpen = true → ∃ r t, exec .acqRead s = .next t ∧ r.length ≤ 100 ∧
    t = { s with frame := t.frame, framelen := t.framelen, rx := s.rx.tail, drawn := t.drawn, phase := .acqClose } ∧
    t.framelen.toNat = r.length ∧ (∀ k (hk : k < r.length), readByte t k = .ok r[k]) ∧
    (∀ k, r.length ≤ k → k < 100 → readByte t k = .error .frameUnspecified) ∧
    (∀ a rest, s.rx = a :: rest → r = a.take 100) ∧ (Memory.wf s.frame = true → Memory.wf t.frame = true)

/-- ACQ.CLOSE (R102): the link is closed, whatever was read; nothing else changes. -/
def Obligations.AcquisitionClosesTheLink : Prop :=
  ∀ s : State, exec .acqClose s = .next { s with linkOpen := false, phase := .acqLen }

/-- ACQ.LEN (R103): IncompleteData for every FRAMELEN below 100, DEC_ENV otherwise. -/
def Obligations.ShortFramesAreIncompleteData : Prop :=
  ∀ s : State,
    (s.framelen.toNat < 100 →
      exec .acqLen s = .next { s with linkOpen := false, err := .incompleteData, phase := .failed }) ∧
    (100 ≤ s.framelen.toNat → exec .acqLen s = .next { s with phase := .decEnv })

/-- R104: ACQUIRE as a whole, four steps from ACQ_REQ. -/
def Obligations.AcquireTakesOneAnswerAndClosesTheLink : Prop :=
  ∀ (s : State) (a : List Byte) (rest : List (List Byte)), s.issue = none → s.host = [] → s.phase = .acqReq →
    s.linkOpen = true → s.rx = a :: rest →
    ∃ t, core.run 4 s = .next t ∧ t.txlog = s.txlog ++ loop1Bytes ∧ t.rx = rest ∧ t.linkOpen = false ∧
      (a.length < 100 → t.phase = .failed ∧ t.err = .incompleteData ∧ t.framelen.toNat = a.length) ∧
      (100 ≤ a.length → t.phase = .decEnv ∧ t.err = s.err ∧ readBytes t 0 100 = .ok (a.take 100))

/-! ### Packet Decoder -/

/-- Where the primitives stop, which no run meets: a send or a read with the link closed, since R38 requires it open
(log entry 11); a read of FRAME at or beyond FRAMELEN, where it has no value (R20, R26; log entry 10), or above address
99, which does not exist (R37; log entry 19). -/
def Obligations.PrimitivesStopOutsideTheirDomain : Prop :=
  (∀ (s : State) (i : Instr), i ∈ [Instr.hsProbe, .hsRdack, .acqReq, .acqRead, .wake, .loop1] → s.linkOpen = false →
    exec i s = .fault .linkClosed) ∧
  (∀ (s : State) (a : Nat),
    (a < 100 → s.framelen.toNat ≤ a → readByte s a = .error .frameUnspecified) ∧
    (100 ≤ a → readByte s a = .error .outsideFrame))

/-- DEC.ENV (R110) on a frame of 100 bytes: the six comparisons decide; nothing but PHASE changes on a match. -/
def Obligations.EnvelopeMatchDecidesByItsSixBytes : Prop :=
  ∀ (s : State) (f : List Byte), readBytes s 0 100 = .ok f →
    (f[0]? = some 0x06 ∧ f[1]? = some 0x4C ∧ f[2]? = some 0x4F ∧ f[3]? = some 0x4F ∧ f[96]? = some 0x0A ∧
        f[97]? = some 0x0D → exec .decEnv s = .next { s with phase := .decCrc }) ∧
    (¬ (f[0]? = some 0x06 ∧ f[1]? = some 0x4C ∧ f[2]? = some 0x4F ∧ f[3]? = some 0x4F ∧ f[96]? = some 0x0A ∧
        f[97]? = some 0x0D) →
      exec .decEnv s = .next { s with linkOpen := false, err := .malformedPacket, phase := .failed })

/-- DEC.CRC (R111) on a frame of 100 bytes: the register ends at the checksum of B[1..99] under the transform in force
(R6), and zero decides. That the
register keeps it on the failing path too is read from R111 and R112 (log entry 13). -/
def Obligations.ChecksumTestDecidesByZeroResidue : Prop :=
  ∀ (s : State) (f : List Byte), readBytes s 0 100 = .ok f → ∃ t, exec .decCrc s = .next t ∧
    halves t.crcHi t.crcLo = crc16 s.params.crcStep (f.drop 1) 0 ∧
    (crc16 s.params.crcStep (f.drop 1) 0 = 0 → t = { s with crcHi := 0, crcLo := 0, phase := .decFx }) ∧
    (crc16 s.params.crcStep (f.drop 1) 0 ≠ 0 → t = { s with
      crcHi := t.crcHi, crcLo := t.crcLo, linkOpen := false, err := .malformedPacket, phase := .failed })

/-- LD.U8 and LD.U16LE (R120, R121): the bytes at `off + 1` and, for two, `off + 2`, little-endian, at any offset and
alignment (R33); nothing of the block changes (log entry 14). -/
def Obligations.LoadsReturnPayloadBytes : Prop :=
  ∀ (s : State) (off : Offset) (lo hi : Byte), readByte s (off.toNat + 1) = .ok lo →
    exec (.ldU8 off) s = .next { s with ret := BitVec.ofNat 16 lo.toNat } ∧
    (readByte s (off.toNat + 2) = .ok hi →
      exec (.ldU16le off) s = .next { s with ret := BitVec.ofNat 16 (lo.toNat + 256 * hi.toNat) })

/-- FX.PRESSURE (R122): raw 0 is absent, any other raw is the value raw / 1000; nothing but X[0] changes. -/
def Obligations.PressureFieldIsExtracted : Prop :=
  ∀ (s : State) (lo hi : Byte), readByte s (s.config.pressureOff.toNat + 1) = .ok lo →
    readByte s (s.config.pressureOff.toNat + 2) = .ok hi →
    (lo.toNat + 256 * hi.toNat = 0 → exec .fxPressure s = .next { s with x := { s.x with pressure := ⟨false, 0⟩ } } ∧
      fieldValue s.config .pressure ⟨false, 0⟩ = none) ∧
    (∀ r : XReg, lo.toNat + 256 * hi.toNat ≠ 0 → r = ⟨true, BitVec.ofNat 16 (lo.toNat + 256 * hi.toNat)⟩ →
      exec .fxPressure s = .next { s with x := { s.x with pressure := r } } ∧
      fieldValue s.config .pressure r = some ⟨lo.toNat + 256 * hi.toNat, -3⟩)

/-- FX.TEMP (R123): raw 32767 is absent, raw 0 is not; nothing but X[1] changes. The value's sign is
`RegisterValuesAreExactDecimals`. -/
def Obligations.TemperatureFieldIsExtracted : Prop :=
  ∀ (s : State) (lo hi : Byte), readByte s (s.config.tempOff.toNat + 1) = .ok lo →
    readByte s (s.config.tempOff.toNat + 2) = .ok hi →
    exec .fxTemp s = .next { s with x := { s.x with temperature :=
      if lo.toNat + 256 * hi.toNat = 32767 then ⟨false, 0⟩
      else ⟨true, BitVec.ofNat 16 (lo.toNat + 256 * hi.toNat)⟩ } }

/-- FX.WIND (R124): raw 255 is absent, raw 0 is not; nothing but X[2] changes. -/
def Obligations.WindSpeedFieldIsExtracted : Prop :=
  ∀ (s : State) (v : Byte), readByte s (s.config.windOff.toNat + 1) = .ok v →
    (v.toNat = 255 → exec .fxWind s = .next { s with x := { s.x with windSpeed := ⟨false, 0⟩ } } ∧
      fieldValue s.config .windSpeed ⟨false, 0⟩ = none) ∧
    (∀ r : XReg, v.toNat ≠ 255 → r = ⟨true, BitVec.ofNat 16 v.toNat⟩ →
      exec .fxWind s = .next { s with x := { s.x with windSpeed := r } } ∧
      fieldValue s.config .windSpeed r = some ⟨v.toNat, 0⟩)

/-- FX.BEARING (R125): without the field absent and no byte read; raw 0 absent; raw 360 the valid value 0; nothing but
X[3] changes. -/
def Obligations.BearingFieldIsExtracted : Prop :=
  ∀ s : State,
    (s.config.bearingEn = false → exec .fxBearing s = .next { s with x := { s.x with windBearing := ⟨false, 0⟩ } }) ∧
    (∀ lo hi : Byte, s.config.bearingEn = true → readByte s (s.config.bearingOff.toNat + 1) = .ok lo →
      readByte s (s.config.bearingOff.toNat + 2) = .ok hi →
      (lo.toNat + 256 * hi.toNat = 0 →
        exec .fxBearing s = .next { s with x := { s.x with windBearing := ⟨false, 0⟩ } } ∧
        fieldValue s.config .windBearing ⟨false, 0⟩ = none) ∧
      (lo.toNat + 256 * hi.toNat = 360 →
        exec .fxBearing s = .next { s with x := { s.x with windBearing := ⟨true, 0⟩ } } ∧
        fieldValue s.config .windBearing ⟨true, 0⟩ = some ⟨0, 0⟩) ∧
      (∀ r : XReg, lo.toNat + 256 * hi.toNat ≠ 0 → lo.toNat + 256 * hi.toNat ≠ 360 →
        r = ⟨true, BitVec.ofNat 16 (lo.toNat + 256 * hi.toNat)⟩ →
        exec .fxBearing s = .next { s with x := { s.x with windBearing := r } } ∧
        fieldValue s.config .windBearing r = some ⟨lo.toNat + 256 * hi.toNat, 0⟩))

/-- FX.HUM (R126): raw 255 is absent, 101 to 254 pass; nothing but X[4] changes. -/
def Obligations.HumidityFieldIsExtracted : Prop :=
  ∀ (s : State) (v : Byte), readByte s (s.config.humOff.toNat + 1) = .ok v →
    (v.toNat = 255 → exec .fxHum s = .next { s with x := { s.x with humidity := ⟨false, 0⟩ } } ∧
      fieldValue s.config .humidity ⟨false, 0⟩ = none) ∧
    (∀ r : XReg, v.toNat ≠ 255 → r = ⟨true, BitVec.ofNat 16 v.toNat⟩ →
      exec .fxHum s = .next { s with x := { s.x with humidity := r } } ∧
      fieldValue s.config .humidity r = some ⟨v.toNat, 0⟩)

/-- FX.ICON (R127): every value is extracted as it is; nothing but X[5] changes. -/
def Obligations.IconFieldIsExtracted : Prop :=
  ∀ (s : State) (v : Byte), readByte s (s.config.iconOff.toNat + 1) = .ok v →
    exec .fxIcon s = .next { s with x := { s.x with icon := ⟨true, BitVec.ofNat 16 v.toNat⟩ } } ∧
    fieldValue s.config .icon ⟨true, BitVec.ofNat 16 v.toNat⟩ = some ⟨v.toNat, 0⟩

/-- DEC.FX (R128) on a frame of 100 bytes under a well-formed layout: all six registers by their own rules, and the next
phase; nothing else changes. -/
def Obligations.ExtractionWritesAllSixFields : Prop :=
  ∀ (s : State) (f : List Byte), s.config.wellFormed = true → readBytes s 0 100 = .ok f →
    exec .decFx s = .next { s with
      x := fieldsOf (f.drop 1) s.config, phase := if s.config.forecastEn then .fcMap else .done }

/-- The FIELD rows of the opcode table (R56, R58, log entry 17): the raw bits go through the sentinel test and the
normalisation into their register; nothing else changes. -/
def Obligations.FieldRowsFollowTheirDescriptors : Prop :=
  ∀ (s : State) (raw : Half) (v : Byte),
    exec (.fieldPressure raw) s = .next { s with x := { s.x with pressure :=
      if raw.toNat = 0 then ⟨false, 0⟩ else ⟨true, raw⟩ } } ∧
    exec (.fieldTemperature raw) s = .next { s with x := { s.x with temperature :=
      if raw.toNat = 32767 then ⟨false, 0⟩ else ⟨true, raw⟩ } } ∧
    exec (.fieldWindSpeed v) s = .next { s with x := { s.x with windSpeed :=
      if v.toNat = 255 then ⟨false, 0⟩ else ⟨true, BitVec.ofNat 16 v.toNat⟩ } } ∧
    exec (.fieldWindBearing raw) s = .next { s with x := { s.x with windBearing :=
      if s.config.bearingEn = false ∨ raw.toNat = 0 then ⟨false, 0⟩
      else if raw.toNat = 360 then ⟨true, 0⟩ else ⟨true, raw⟩ } } ∧
    exec (.fieldHumidity v) s = .next { s with x := { s.x with humidity :=
      if v.toNat = 255 then ⟨false, 0⟩ else ⟨true, BitVec.ofNat 16 v.toNat⟩ } } ∧
    exec (.fieldIcon v) s = .next { s with x := { s.x with icon := ⟨true, BitVec.ofNat 16 v.toNat⟩ } }

/-- R112: the three decoder phases compute `decode(f, LAYOUT)`, written from R112 as a function of the byte string; on an
error X stays as it was (R113). -/
def Obligations.DecoderPhasesComputeDecode : Prop :=
  ∀ (s : State) (f : List Byte), s.issue = none → s.host = [] → s.phase = .decEnv → s.config.wellFormed = true →
    readBytes s 0 100 = .ok f → ∃ t, core.run 3 s = .next t ∧
      match decodePacket s.params.crcStep f s.config with
      | .ok x => t.x = x ∧ t.err = s.err ∧ t.phase = (if s.config.forecastEn then .fcMap else .done)
      | .error e => t.x = s.x ∧ t.err = e ∧ t.phase = .failed

/-- R113, R55: a step of a run gives X its first value only in DEC_FX, and only on a well-formed frame. -/
def Obligations.NothingIsExtractedFromAMalformedFrame : Prop :=
  ∀ s t : State, Inv s → step s = .next t → s.x = .allAbsent → t.x ≠ .allAbsent →
    s.phase = .decFx ∧ frameWellFormed s.params.crcStep s.frameBytes = true

/-- The value of a result register (R129): thousandths for the pressure, tenths for the temperature, which is signed
where TEMP_SIGNED = 1 (D7), whole numbers for the rest, none where absent. -/
def Obligations.RegisterValuesAreExactDecimals : Prop :=
  ∀ (c : ConfigReg) (f : Field) (raw : Half),
    fieldValue c f ⟨false, raw⟩ = none ∧
    fieldValue c .pressure ⟨true, raw⟩ = some ⟨raw.toNat, -3⟩ ∧
    (c.tempSigned = true → fieldValue c .temperature ⟨true, raw⟩ = some ⟨raw.toInt, -1⟩) ∧
    (c.tempSigned = false → fieldValue c .temperature ⟨true, raw⟩ = some ⟨raw.toNat, -1⟩) ∧
    (f ≠ .pressure → f ≠ .temperature → fieldValue c f ⟨true, raw⟩ = some ⟨raw.toNat, 0⟩)

/-! ### Forecast Mapper, hand-off, wire rows, host view -/

/-- FC.MAP (R140, R141): a code of the table gives its label and DONE, any other code UnknownForecastCode and no label;
nothing else changes. -/
def Obligations.ForecastLookupIsTotalOrFailing : Prop :=
  ∀ (s : State) (code : Byte), code.toNat = s.x.icon.raw.toNat % 256 →
    (∀ l, tableLookup s.table code = some l →
      exec .fcMap s = .next { s with label := ⟨true, l⟩, phase := .done }) ∧
    (tableLookup s.table code = none →
      exec .fcMap s = .next { s with linkOpen := false, err := .unknownForecastCode, phase := .failed })

/-- The hand-off (R142, R175): nothing outside DONE; in DONE the label where FORECAST_EN = 1 and the values of the
registers, the bearing only where the layout has it. -/
def Obligations.HandoffHappensOnlyInDone : Prop :=
  ∀ s : State, Inv s →
    ((handoff s).isSome = true ↔ s.phase = .done) ∧
    (∀ h, handoff s = some h →
      h.state = (if s.config.forecastEn then tableLookup s.table (iconCode s) else none) ∧
      h.pressure = fieldValue s.config .pressure s.x.pressure ∧
      h.temperature = fieldValue s.config .temperature s.x.temperature ∧
      h.windSpeed = fieldValue s.config .windSpeed s.x.windSpeed ∧
      h.windBearing = (if s.config.bearingEn then some (fieldValue s.config .windBearing s.x.windBearing) else none) ∧
      h.humidity = fieldValue s.config .humidity s.x.humidity)

/-- The wire rows (R51 to R54, log entries 15 and 16): a command is sent on the open link, a station's bytes become the
answer to a later read; nothing else changes. -/
def Obligations.WireRowsTravelOnTheirStreams : Prop :=
  ∀ (s : State) (body : List Byte) (hi lo : Byte),
    (s.linkOpen = true → exec .wake s = .next { s with txlog := s.txlog ++ [0x0A#8] }) ∧
    (s.linkOpen = true → exec .loop1 s = .next { s with
      txlog := s.txlog ++ [0x4C#8, 0x4F#8, 0x4F#8, 0x50#8, 0x20#8, 0x31#8, 0x0A#8] }) ∧
    exec .ack s = .next { s with rx := s.rx ++ [[0x0A#8, 0x0D#8]] } ∧
    exec (.frame body hi lo) s = .next { s with
      rx := s.rx ++ [[0x06#8, 0x4C#8, 0x4F#8, 0x4F#8] ++ body ++ [0x0A#8, 0x0D#8, hi, lo]] }

/-- The host's registers (R15, R16, R25): STATUS bit by bit, ERR, X and LABEL; there is no other register. -/
def Obligations.HostRegistersShowTheState : Prop :=
  ∀ s : State,
    (status s).toNat = s.phase.code.toNat + (if busy s then 16 else 0) + (if s.phase = .done then 32 else 0) +
      (if s.phase = .failed then 64 else 0) + (if s.linkOpen then 128 else 0) ∧
    (busy s = true ↔ s.phase ≠ .idle ∧ s.phase.terminal = false) ∧
    hostRead s 0 = some (.status (status s)) ∧ hostRead s 1 = some (.err (s.err.code s.params.errCodes)) ∧
    (∀ n (h : n < 6), hostRead s (n + 2) = some (.x (s.x.get
      [Field.pressure, .temperature, .windSpeed, .windBearing, .humidity, .icon][n]))) ∧
    hostRead s 8 = some (.label s.label) ∧ ∀ n, 9 ≤ n → hostRead s n = none

/-! ### Frames -/

/-- FRAME is written by ACQ.READ alone (R10, R20): every other instruction leaves every byte of it as it reads, but
START, after which no byte has a value (R44). -/
def Obligations.OnlyTheAcquisitionReadWritesFrame : Prop :=
  ∀ (i : Instr) (s t : State), i ≠ .acqRead → exec i s = .next t →
    t.frame = s.frame ∧
    ((i ≠ .start ∨ s.phase ≠ .idle) → ∀ a, readByte t a = readByte s a) ∧
    (i = .start → s.phase = .idle → ∀ a < 100, readByte t a = .error .frameUnspecified)

/-- CONFIG, FORECAST_TABLE and the other parameters are constant during a run (R177, R141, R6): no instruction writes
them, no step changes the table or the parameters, and a step changes CONFIG only for the host, by a write in IDLE or a
reset. No instruction touches the host's inputs. -/
def Obligations.ConfigurationIsConstantDuringARun : Prop :=
  (∀ (i : Instr) (s t : State), exec i s = .next t →
    t.config = s.config ∧ t.table = s.table ∧ t.params = s.params ∧ t.host = s.host ∧ t.issue = s.issue) ∧
  (∀ s t : State, step s = .next t → t.table = s.table ∧ t.params = s.params) ∧
  (∀ s t : State, step s = .next t → t.config ≠ s.config →
    ∃ rest, (∃ c, s.host = .writeConfig c :: rest ∧ s.phase = .idle ∧ c.wellFormed = true ∧ t.config = c) ∨
      s.host = .reset :: rest)

/-- The transmit stream: of the operations only HS.PROBE and ACQ.REQ append to it (R22, R174). That the rows WAKE and
LOOP1 append to it too, on an open link, is the model's choice (log entry 15). START begins a new log (R24, R70); nothing
else touches it. -/
def Obligations.OnlyProbeRequestAndCommandRowsTransmit : Prop :=
  ∀ (i : Instr) (s t : State), exec i s = .next t → t.txlog ≠ s.txlog →
    (i = .start ∧ s.phase = .idle ∧ t.txlog = []) ∨
    (s.linkOpen = true ∧ i ∈ [Instr.hsProbe, .wake] ∧ t.txlog = s.txlog ++ wakeBytes) ∨
    (s.linkOpen = true ∧ i ∈ [Instr.acqReq, .loop1] ∧ t.txlog = s.txlog ++ loop1Bytes)

/-- The registers each instruction may write: whatever is not named for it is as it was, and every byte of FRAME reads
as it did unless the instruction is START or ACQ.READ. For the operations this is R10's column "written by" and R14. The
model's own choices: `ret` and `drawn` and who writes them (log entries 5, 6 and 14), the rows ACK and FRAME, which write
the answers to come (log entry 16), and the FIELD rows, which write their result register (log entry 17). -/
def Obligations.InstructionsWriteOnlyTheirRegisters : Prop :=
  ∀ (i : Instr) (s t : State), exec i s = .next t →
    (t.attempt ≠ s.attempt → i ∈ [Instr.start, .hsProbe]) ∧
    ((t.ackbuf0 ≠ s.ackbuf0 ∨ t.ackbuf1 ≠ s.ackbuf1 ∨ t.acklen ≠ s.acklen) → i = .hsRdack) ∧
    (t.framelen ≠ s.framelen → i ∈ [Instr.start, .acqRead]) ∧
    (t.frame ≠ s.frame → i = .acqRead) ∧ (∀ a, readByte t a ≠ readByte s a → i ∈ [Instr.start, .acqRead]) ∧
    ((t.crcHi ≠ s.crcHi ∨ t.crcLo ≠ s.crcLo) → i = .decCrc ∨ (∃ v, i = .crcInit v) ∨ ∃ b, i = .crcUpdate b) ∧
    (t.label ≠ s.label → i ∈ [Instr.start, .fcMap]) ∧
    (t.err ≠ s.err → i ∈ [Instr.start, .hsCmp, .acqLen, .decEnv, .decCrc, .fcMap]) ∧
    (t.linkOpen ≠ s.linkOpen → i ∈ [Instr.start, .hsCmp, .acqClose, .acqLen, .decEnv, .decCrc, .fcMap]) ∧
    (t.rx ≠ s.rx → i ∈ [Instr.hsRdack, .acqRead, .ack] ∨ ∃ b h l, i = .frame b h l) ∧
    (t.drawn ≠ s.drawn → i ∈ [Instr.hsRdack, .acqRead]) ∧
    (t.ret ≠ s.ret → i ∈ [Instr.crcResult, .crcCheck] ∨ (∃ o, i = .ldU8 o) ∨ ∃ o, i = .ldU16le o) ∧
    (t.phase ≠ s.phase → i ∈ [Instr.start, .hsProbe, .hsRdack, .hsCmp, .acqReq, .acqRead, .acqClose, .acqLen, .decEnv,
      .decCrc, .decFx, .fcMap]) ∧
    (t.x.pressure ≠ s.x.pressure → i ∈ [Instr.start, .decFx, .fxPressure] ∨ ∃ v, i = .fieldPressure v) ∧
    (t.x.temperature ≠ s.x.temperature → i ∈ [Instr.start, .decFx, .fxTemp] ∨ ∃ v, i = .fieldTemperature v) ∧
    (t.x.windSpeed ≠ s.x.windSpeed → i ∈ [Instr.start, .decFx, .fxWind] ∨ ∃ v, i = .fieldWindSpeed v) ∧
    (t.x.windBearing ≠ s.x.windBearing → i ∈ [Instr.start, .decFx, .fxBearing] ∨ ∃ v, i = .fieldWindBearing v) ∧
    (t.x.humidity ≠ s.x.humidity → i ∈ [Instr.start, .decFx, .fxHum] ∨ ∃ v, i = .fieldHumidity v) ∧
    (t.x.icon ≠ s.x.icon → i ∈ [Instr.start, .decFx, .fxIcon] ∨ ∃ v, i = .fieldIcon v)

/-! ### Whole-machine statements -/

/-- R27 and more: every step keeps the invariant, whatever the host does and the station answers. -/
def Obligations.EveryStepKeepsTheInvariant : Prop :=
  ∀ s t : State, Inv s → step s = .next t → Inv t

/-- R72: from a state of the invariant the block always takes a step: it stops for nothing but a layout the model
refuses (D23). -/
def Obligations.NoReachableStateIsStuck : Prop :=
  ∀ s : State, Inv s → (∀ c rest, s.host = c :: rest → c.accepted = true) → ∃ t, step s = .next t

/-- R72: a run left to itself reaches DONE or FAILED within 17 steps after START. -/
def Obligations.EveryRunEndsWithinSeventeenSteps : Prop :=
  ∀ s : State, Inv s → s.host = [] → s.phase ≠ .idle → ∃ t, core.run 17 s = .next t ∧ t.phase.terminal = true

/-- R179, R27 (b), (c), (g), (h): what holds at the end of a run, and the four transmit traces. -/
def Obligations.EndedRunsHaveClosedTheLink : Prop :=
  ∀ s : State, Inv s → s.phase.terminal = true →
    s.linkOpen = false ∧ (s.phase = .done ↔ s.err = .noError) ∧
    (s.phase = .done ↔ s.err.code s.params.errCodes = 0) ∧
    (s.err = .stationNotReady → s.txlog = [0x0A#8, 0x0A#8, 0x0A#8]) ∧
    (s.err ≠ .stationNotReady → s.txlog ∈ [[0x0A#8] ++ loop1Bytes, [0x0A#8, 0x0A#8] ++ loop1Bytes,
      [0x0A#8, 0x0A#8, 0x0A#8] ++ loop1Bytes])

/-- R75: reset, a CONFIG write and START, then the step machine left to itself, give what the function RUN, written from
R75, gives for the transform in force, that configuration, the table and the answers. -/
def Obligations.StepMachineAgreesWithRun : Prop :=
  ∀ (s : State) (c : ConfigReg), s.issue = none → s.host = [.reset, .writeConfig c, .start] → c.wellFormed = true →
    4 ≤ s.rx.length →
    ∃ t r, core.run 20 s = .next t ∧ r = runBlock s.params.crcStep c s.table s.rx ∧
      t.phase = r.phase ∧ t.err = r.err ∧ t.x = r.x ∧
      (if t.label.valid then some t.label.label else none) = r.label ∧ t.txlog = r.txlog ∧ t.rx = s.rx.drop r.reads

/-- R172: two blocks in IDLE that agree on CONFIG, the table, the parameters and the environment run alike from START
on, whatever an earlier run left in FRAME, the checksum register, ACKBUF, ATTEMPT, X, ERR and TXLOG: they stop alike or
show the same. -/
def Obligations.RunsDoNotDependOnWhatEarlierRunsLeft : Prop :=
  ∀ (s s' : State) (n : Nat), s.issue = none → s'.issue = none → s.phase = .idle → s'.phase = .idle →
    s.host = [.start] → s'.host = [.start] → s.config = s'.config → s.table = s'.table →
    s.params = s'.params → s.rx = s'.rx → s.drawn = s'.drawn →
    (∀ t, core.run (n + 1) s = .next t → ∃ t', core.run (n + 1) s' = .next t' ∧ t.phase = t'.phase ∧ t.err = t'.err ∧
      t.x = t'.x ∧ t.label.valid = t'.label.valid ∧ (t.label.valid = true → t.label = t'.label) ∧ t.txlog = t'.txlog ∧
      t.attempt = t'.attempt ∧ t.rx = t'.rx ∧ status t = status t') ∧
    (∀ e, core.run (n + 1) s = .fault e → core.run (n + 1) s' = .fault e)
end

