-- ==== Sys2Proof/Laws/Memory.lean ====
section
/-! SUPPORT. The laws of FRAME: a read after a write, and that every memory operation keeps the canonical form. -/

namespace Sys2Proof.Machine

theorem Memory.lookup_write (m : List Host.Cell) (a b : Nat) (v : Byte) :
    Memory.lookup (Memory.write m a v) b = if a = b then some v else Memory.lookup m b := by
  induction m with
  | nil => simp [Memory.write, Memory.lookup]
  | cons c m ih =>
    obtain ⟨d, w⟩ := c
    simp only [Memory.write]
    split
    · simp [Memory.lookup]
    · split
      · subst a; simp only [Memory.lookup]; split <;> simp_all
      · simp only [Memory.lookup, ih]; split
        · subst b; simp [*]
        · rfl

@[simp] theorem Memory.lookup_write_same (m : List Host.Cell) (a : Nat) (v : Byte) :
    Memory.lookup (Memory.write m a v) a = some v := by
  simp [Memory.lookup_write]

theorem Memory.lookup_write_other (m : List Host.Cell) {a b : Nat} (v : Byte) (h : a ≠ b) :
    Memory.lookup (Memory.write m a v) b = Memory.lookup m b := by
  simp [Memory.lookup_write, h]

/-- Bytes written from `a` on: address `b` holds the byte of that index, and every other address what it held. -/
theorem Memory.lookup_writeFrom (bs : List Byte) : ∀ (m : List Host.Cell) (a b : Nat),
    Memory.lookup (Memory.writeFrom m a bs) b =
      if a ≤ b ∧ b < a + bs.length then bs[b - a]? else Memory.lookup m b := by
  induction bs with
  | nil =>
    intro m a b
    have : ¬ (a ≤ b ∧ b < a + 0) := by omega
    simp only [Memory.writeFrom, List.length_nil, if_neg this]
  | cons v bs ih =>
    intro m a b
    simp only [Memory.writeFrom, ih, Memory.lookup_write, List.length_cons]
    by_cases h : a = b
    · subst h
      have h1 : ¬ (a + 1 ≤ a ∧ a < a + 1 + bs.length) := by omega
      have h2 : a ≤ a ∧ a < a + (bs.length + 1) := by omega
      simp [h2]
    · by_cases h1 : a + 1 ≤ b ∧ b < a + 1 + bs.length
      · have h2 : a ≤ b ∧ b < a + (bs.length + 1) := by omega
        rw [if_pos h1, if_pos h2, show b - a = (b - (a + 1)) + 1 by omega]; simp
      · have h2 : ¬ (a ≤ b ∧ b < a + (bs.length + 1)) := by omega
        rw [if_neg h1, if_neg h2, if_neg h]

theorem Memory.wfFrom_mono {m : List Host.Cell} {lo lo' : Nat} (h : lo' ≤ lo) (hm : Memory.wfFrom lo m = true) :
    Memory.wfFrom lo' m = true := by
  cases m with
  | nil => rfl
  | cons c m =>
    simp only [Memory.wfFrom, Bool.and_eq_true, decide_eq_true_eq] at hm ⊢
    exact ⟨⟨by omega, hm.1.2⟩, hm.2⟩

/-- A write inside FRAME keeps the canonical form. -/
theorem Memory.write_wfFrom (m : List Host.Cell) (a : Nat) (v : Byte) (ha : a < Config.frameLen) :
    ∀ lo, lo ≤ a → Memory.wfFrom lo m = true → Memory.wfFrom lo (Memory.write m a v) = true := by
  induction m with
  | nil => intro lo hlo _; simp [Memory.write, Memory.wfFrom, hlo, ha]
  | cons c m ih =>
    obtain ⟨b, w⟩ := c
    intro lo hlo hm
    simp only [Memory.wfFrom, Bool.and_eq_true, decide_eq_true_eq] at hm
    simp only [Memory.write]
    split
    · simp only [Memory.wfFrom, Bool.and_eq_true, decide_eq_true_eq]
      exact ⟨⟨hlo, ha⟩, ⟨by omega, hm.1.2⟩, hm.2⟩
    · split
      · subst a; simp [Memory.wfFrom, hm.1.1, hm.1.2, hm.2]
      · simp only [Memory.wfFrom, Bool.and_eq_true, decide_eq_true_eq]
        exact ⟨hm.1, ih (b + 1) (by omega) hm.2⟩

theorem Memory.write_wf (m : List Host.Cell) (a : Nat) (v : Byte) (ha : a < Config.frameLen)
    (hm : Memory.wf m = true) : Memory.wf (Memory.write m a v) = true :=
  Memory.write_wfFrom m a v ha 0 (by omega) hm

/-- So do writes at consecutive addresses inside FRAME. -/
theorem Memory.writeFrom_wf (bs : List Byte) : ∀ (m : List Host.Cell) (a : Nat), a + bs.length ≤ Config.frameLen →
    Memory.wf m = true → Memory.wf (Memory.writeFrom m a bs) = true := by
  induction bs with
  | nil => intro m a _ hm; exact hm
  | cons v bs ih =>
    intro m a h hm
    simp only [List.length_cons] at h
    exact ih _ _ (by omega) (Memory.write_wf m a v (by omega) hm)

theorem Memory.wf_nil : Memory.wf [] = true := rfl

/-- In canonical form nothing is listed below the bound. -/
theorem Memory.lookup_lt_of_wfFrom (m : List Host.Cell) : ∀ lo a, Memory.wfFrom lo m = true → a < lo →
    Memory.lookup m a = none := by
  induction m with
  | nil => intros; rfl
  | cons c m ih =>
    obtain ⟨b, w⟩ := c
    intro lo a hm h
    simp only [Memory.wfFrom, Bool.and_eq_true, decide_eq_true_eq] at hm
    simp only [Memory.lookup, if_neg (show ¬ b = a by omega)]
    exact ih (b + 1) a hm.2 (by omega)

/-- In canonical form equal contents are equal lists. -/
theorem Memory.ext_of_wfFrom (m : List Host.Cell) : ∀ (m' : List Host.Cell) lo, Memory.wfFrom lo m = true →
    Memory.wfFrom lo m' = true → (∀ a, Memory.lookup m a = Memory.lookup m' a) → m = m' := by
  induction m with
  | nil =>
    intro m' lo _ hm' h
    cases m' with
    | nil => rfl
    | cons c m' => have := h c.1; simp [Memory.lookup, Memory.unlisted] at this
  | cons c m ih =>
    obtain ⟨b, w⟩ := c
    intro m' lo hm hm' h
    cases m' with
    | nil => have := h b; simp [Memory.lookup, Memory.unlisted] at this
    | cons c' m' =>
      obtain ⟨b', w'⟩ := c'
      simp only [Memory.wfFrom, Bool.and_eq_true, decide_eq_true_eq] at hm hm'
      have hb : b = b' := by
        rcases Nat.lt_trichotomy b b' with hlt | heq | hgt
        · have h1 := h b
          rw [Memory.lookup, if_pos rfl, Memory.lookup, if_neg (by omega),
            Memory.lookup_lt_of_wfFrom m' _ _ hm'.2 (by omega)] at h1
          cases h1
        · exact heq
        · have h1 := h b'
          rw [Memory.lookup, if_neg (by omega), Memory.lookup_lt_of_wfFrom m _ _ hm.2 (by omega),
            Memory.lookup, if_pos rfl] at h1
          cases h1
      subst hb
      have hw : w = w' := by have := h b; simpa [Memory.lookup] using this
      subst hw
      rw [ih m' (b + 1) hm.2 hm'.2 fun a => ?_]
      by_cases ha : b = a
      · subst ha
        rw [Memory.lookup_lt_of_wfFrom m _ _ hm.2 (by omega), Memory.lookup_lt_of_wfFrom m' _ _ hm'.2 (by omega)]
      · have := h a
        simpa [Memory.lookup, ha] using this

/-- A read depends on FRAME and FRAMELEN only. -/
theorem readByte_congr {s t : State} (hf : t.frame = s.frame) (hl : t.framelen = s.framelen) (a : Nat) :
    readByte t a = readByte s a := by
  simp only [readByte, hf, hl]

theorem readBytes_congr {s t : State} (h : ∀ a, readByte t a = readByte s a) (n : Nat) :
    ∀ a, readBytes t a n = readBytes s a n := by
  induction n with
  | zero => intro a; rfl
  | succ n ih => intro a; simp only [readBytes, h, ih]

/-- What a read of one byte can answer. -/
theorem readByte_ok_iff (s : State) (a : Nat) (v : Byte) :
    readByte s a = .ok v ↔ a < 100 ∧ a < s.framelen.toNat ∧ Memory.lookup s.frame a = some v := by
  unfold readByte Config.frameLen
  split
  · split
    · cases h : Memory.lookup s.frame a <;> simp_all
    · simp_all
  · simp_all

/-- `readBytes` answers the bytes in order exactly where each is readable. -/
theorem readBytes_ok_iff (s : State) (n : Nat) : ∀ (a : Nat) (vs : List Byte),
    readBytes s a n = .ok vs ↔ vs.length = n ∧ ∀ k, (h : k < vs.length) → readByte s (a + k) = .ok vs[k] := by
  induction n with
  | zero =>
    intro a vs
    cases vs <;> simp [readBytes]
  | succ n ih =>
    intro a vs
    constructor
    · intro h
      simp only [readBytes] at h
      cases h1 : readByte s a with
      | error f => rw [h1] at h; cases h
      | ok v =>
        rw [h1] at h
        cases h2 : readBytes s (a + 1) n with
        | error f => rw [h2] at h; cases h
        | ok ws =>
          rw [h2] at h
          cases h
          obtain ⟨hl, hr⟩ := (ih (a + 1) ws).1 h2
          refine ⟨by simp [hl], fun k hk => ?_⟩
          cases k with
          | zero => simpa using h1
          | succ k => simpa [Nat.add_assoc, Nat.add_comm 1 k] using hr k (by simpa using hk)
    · rintro ⟨hl, hr⟩
      cases vs with
      | nil => simp at hl
      | cons v vs =>
        have h1 : readByte s a = .ok v := hr 0 (by simp)
        have h2 : readBytes s (a + 1) n = .ok vs := by
          refine (ih (a + 1) vs).2 ⟨by simpa using hl, fun k hk => ?_⟩
          have := hr (k + 1) (by simpa using hk)
          simpa [Nat.add_assoc, Nat.add_comm 1 k] using this
        simp only [readBytes, h1, h2]

end Sys2Proof.Machine
end

