-- ==== Sys2Proof/Laws/State.lean ====
section
/-! SUPPORT. One lemma per field per update of State, so that no later proof unfolds a record update. -/

namespace Sys2Proof.Machine

/-! ### goto -/

@[simp] theorem goto_phase (s : State) (p : Phase) : (s.goto p).phase = p := rfl
@[simp] theorem goto_attempt (s : State) (p : Phase) : (s.goto p).attempt = s.attempt := rfl
@[simp] theorem goto_linkOpen (s : State) (p : Phase) : (s.goto p).linkOpen = s.linkOpen := rfl
@[simp] theorem goto_ackbuf0 (s : State) (p : Phase) : (s.goto p).ackbuf0 = s.ackbuf0 := rfl
@[simp] theorem goto_ackbuf1 (s : State) (p : Phase) : (s.goto p).ackbuf1 = s.ackbuf1 := rfl
@[simp] theorem goto_acklen (s : State) (p : Phase) : (s.goto p).acklen = s.acklen := rfl
@[simp] theorem goto_frame (s : State) (p : Phase) : (s.goto p).frame = s.frame := rfl
@[simp] theorem goto_framelen (s : State) (p : Phase) : (s.goto p).framelen = s.framelen := rfl
@[simp] theorem goto_crcHi (s : State) (p : Phase) : (s.goto p).crcHi = s.crcHi := rfl
@[simp] theorem goto_crcLo (s : State) (p : Phase) : (s.goto p).crcLo = s.crcLo := rfl
@[simp] theorem goto_x (s : State) (p : Phase) : (s.goto p).x = s.x := rfl
@[simp] theorem goto_label (s : State) (p : Phase) : (s.goto p).label = s.label := rfl
@[simp] theorem goto_err (s : State) (p : Phase) : (s.goto p).err = s.err := rfl
@[simp] theorem goto_config (s : State) (p : Phase) : (s.goto p).config = s.config := rfl
@[simp] theorem goto_txlog (s : State) (p : Phase) : (s.goto p).txlog = s.txlog := rfl
@[simp] theorem goto_table (s : State) (p : Phase) : (s.goto p).table = s.table := rfl
@[simp] theorem goto_params (s : State) (p : Phase) : (s.goto p).params = s.params := rfl
@[simp] theorem goto_rx (s : State) (p : Phase) : (s.goto p).rx = s.rx := rfl
@[simp] theorem goto_host (s : State) (p : Phase) : (s.goto p).host = s.host := rfl
@[simp] theorem goto_drawn (s : State) (p : Phase) : (s.goto p).drawn = s.drawn := rfl
@[simp] theorem goto_issue (s : State) (p : Phase) : (s.goto p).issue = s.issue := rfl
@[simp] theorem goto_ret (s : State) (p : Phase) : (s.goto p).ret = s.ret := rfl

/-! ### setX -/

@[simp] theorem setX_phase (s : State) (f : Field) (r : XReg) : (s.setX f r).phase = s.phase := rfl
@[simp] theorem setX_attempt (s : State) (f : Field) (r : XReg) : (s.setX f r).attempt = s.attempt := rfl
@[simp] theorem setX_linkOpen (s : State) (f : Field) (r : XReg) : (s.setX f r).linkOpen = s.linkOpen := rfl
@[simp] theorem setX_ackbuf0 (s : State) (f : Field) (r : XReg) : (s.setX f r).ackbuf0 = s.ackbuf0 := rfl
@[simp] theorem setX_ackbuf1 (s : State) (f : Field) (r : XReg) : (s.setX f r).ackbuf1 = s.ackbuf1 := rfl
@[simp] theorem setX_acklen (s : State) (f : Field) (r : XReg) : (s.setX f r).acklen = s.acklen := rfl
@[simp] theorem setX_frame (s : State) (f : Field) (r : XReg) : (s.setX f r).frame = s.frame := rfl
@[simp] theorem setX_framelen (s : State) (f : Field) (r : XReg) : (s.setX f r).framelen = s.framelen := rfl
@[simp] theorem setX_crcHi (s : State) (f : Field) (r : XReg) : (s.setX f r).crcHi = s.crcHi := rfl
@[simp] theorem setX_crcLo (s : State) (f : Field) (r : XReg) : (s.setX f r).crcLo = s.crcLo := rfl
@[simp] theorem setX_x (s : State) (f : Field) (r : XReg) : (s.setX f r).x = s.x.set f r := rfl
@[simp] theorem setX_label (s : State) (f : Field) (r : XReg) : (s.setX f r).label = s.label := rfl
@[simp] theorem setX_err (s : State) (f : Field) (r : XReg) : (s.setX f r).err = s.err := rfl
@[simp] theorem setX_config (s : State) (f : Field) (r : XReg) : (s.setX f r).config = s.config := rfl
@[simp] theorem setX_txlog (s : State) (f : Field) (r : XReg) : (s.setX f r).txlog = s.txlog := rfl
@[simp] theorem setX_table (s : State) (f : Field) (r : XReg) : (s.setX f r).table = s.table := rfl
@[simp] theorem setX_params (s : State) (f : Field) (r : XReg) : (s.setX f r).params = s.params := rfl
@[simp] theorem setX_rx (s : State) (f : Field) (r : XReg) : (s.setX f r).rx = s.rx := rfl
@[simp] theorem setX_host (s : State) (f : Field) (r : XReg) : (s.setX f r).host = s.host := rfl
@[simp] theorem setX_drawn (s : State) (f : Field) (r : XReg) : (s.setX f r).drawn = s.drawn := rfl
@[simp] theorem setX_issue (s : State) (f : Field) (r : XReg) : (s.setX f r).issue = s.issue := rfl
@[simp] theorem setX_ret (s : State) (f : Field) (r : XReg) : (s.setX f r).ret = s.ret := rfl

/-! ### setCrc -/

@[simp] theorem setCrc_phase (s : State) (c : Half) : (s.setCrc c).phase = s.phase := rfl
@[simp] theorem setCrc_attempt (s : State) (c : Half) : (s.setCrc c).attempt = s.attempt := rfl
@[simp] theorem setCrc_linkOpen (s : State) (c : Half) : (s.setCrc c).linkOpen = s.linkOpen := rfl
@[simp] theorem setCrc_ackbuf0 (s : State) (c : Half) : (s.setCrc c).ackbuf0 = s.ackbuf0 := rfl
@[simp] theorem setCrc_ackbuf1 (s : State) (c : Half) : (s.setCrc c).ackbuf1 = s.ackbuf1 := rfl
@[simp] theorem setCrc_acklen (s : State) (c : Half) : (s.setCrc c).acklen = s.acklen := rfl
@[simp] theorem setCrc_frame (s : State) (c : Half) : (s.setCrc c).frame = s.frame := rfl
@[simp] theorem setCrc_framelen (s : State) (c : Half) : (s.setCrc c).framelen = s.framelen := rfl
@[simp] theorem setCrc_crcHi (s : State) (c : Half) : (s.setCrc c).crcHi = highHalf c := rfl
@[simp] theorem setCrc_crcLo (s : State) (c : Half) : (s.setCrc c).crcLo = lowHalf c := rfl
@[simp] theorem setCrc_x (s : State) (c : Half) : (s.setCrc c).x = s.x := rfl
@[simp] theorem setCrc_label (s : State) (c : Half) : (s.setCrc c).label = s.label := rfl
@[simp] theorem setCrc_err (s : State) (c : Half) : (s.setCrc c).err = s.err := rfl
@[simp] theorem setCrc_config (s : State) (c : Half) : (s.setCrc c).config = s.config := rfl
@[simp] theorem setCrc_txlog (s : State) (c : Half) : (s.setCrc c).txlog = s.txlog := rfl
@[simp] theorem setCrc_table (s : State) (c : Half) : (s.setCrc c).table = s.table := rfl
@[simp] theorem setCrc_params (s : State) (c : Half) : (s.setCrc c).params = s.params := rfl
@[simp] theorem setCrc_rx (s : State) (c : Half) : (s.setCrc c).rx = s.rx := rfl
@[simp] theorem setCrc_host (s : State) (c : Half) : (s.setCrc c).host = s.host := rfl
@[simp] theorem setCrc_drawn (s : State) (c : Half) : (s.setCrc c).drawn = s.drawn := rfl
@[simp] theorem setCrc_issue (s : State) (c : Half) : (s.setCrc c).issue = s.issue := rfl
@[simp] theorem setCrc_ret (s : State) (c : Half) : (s.setCrc c).ret = s.ret := rfl

/-! ### setRet -/

@[simp] theorem setRet_phase (s : State) (v : Half) : (s.setRet v).phase = s.phase := rfl
@[simp] theorem setRet_attempt (s : State) (v : Half) : (s.setRet v).attempt = s.attempt := rfl
@[simp] theorem setRet_linkOpen (s : State) (v : Half) : (s.setRet v).linkOpen = s.linkOpen := rfl
@[simp] theorem setRet_ackbuf0 (s : State) (v : Half) : (s.setRet v).ackbuf0 = s.ackbuf0 := rfl
@[simp] theorem setRet_ackbuf1 (s : State) (v : Half) : (s.setRet v).ackbuf1 = s.ackbuf1 := rfl
@[simp] theorem setRet_acklen (s : State) (v : Half) : (s.setRet v).acklen = s.acklen := rfl
@[simp] theorem setRet_frame (s : State) (v : Half) : (s.setRet v).frame = s.frame := rfl
@[simp] theorem setRet_framelen (s : State) (v : Half) : (s.setRet v).framelen = s.framelen := rfl
@[simp] theorem setRet_crcHi (s : State) (v : Half) : (s.setRet v).crcHi = s.crcHi := rfl
@[simp] theorem setRet_crcLo (s : State) (v : Half) : (s.setRet v).crcLo = s.crcLo := rfl
@[simp] theorem setRet_x (s : State) (v : Half) : (s.setRet v).x = s.x := rfl
@[simp] theorem setRet_label (s : State) (v : Half) : (s.setRet v).label = s.label := rfl
@[simp] theorem setRet_err (s : State) (v : Half) : (s.setRet v).err = s.err := rfl
@[simp] theorem setRet_config (s : State) (v : Half) : (s.setRet v).config = s.config := rfl
@[simp] theorem setRet_txlog (s : State) (v : Half) : (s.setRet v).txlog = s.txlog := rfl
@[simp] theorem setRet_table (s : State) (v : Half) : (s.setRet v).table = s.table := rfl
@[simp] theorem setRet_params (s : State) (v : Half) : (s.setRet v).params = s.params := rfl
@[simp] theorem setRet_rx (s : State) (v : Half) : (s.setRet v).rx = s.rx := rfl
@[simp] theorem setRet_host (s : State) (v : Half) : (s.setRet v).host = s.host := rfl
@[simp] theorem setRet_drawn (s : State) (v : Half) : (s.setRet v).drawn = s.drawn := rfl
@[simp] theorem setRet_issue (s : State) (v : Half) : (s.setRet v).issue = s.issue := rfl
@[simp] theorem setRet_ret (s : State) (v : Half) : (s.setRet v).ret = v := rfl

/-! ### serClose -/

@[simp] theorem serClose_phase (s : State) : (serClose s).phase = s.phase := rfl
@[simp] theorem serClose_attempt (s : State) : (serClose s).attempt = s.attempt := rfl
@[simp] theorem serClose_linkOpen (s : State) : (serClose s).linkOpen = false := rfl
@[simp] theorem serClose_ackbuf0 (s : State) : (serClose s).ackbuf0 = s.ackbuf0 := rfl
@[simp] theorem serClose_ackbuf1 (s : State) : (serClose s).ackbuf1 = s.ackbuf1 := rfl
@[simp] theorem serClose_acklen (s : State) : (serClose s).acklen = s.acklen := rfl
@[simp] theorem serClose_frame (s : State) : (serClose s).frame = s.frame := rfl
@[simp] theorem serClose_framelen (s : State) : (serClose s).framelen = s.framelen := rfl
@[simp] theorem serClose_crcHi (s : State) : (serClose s).crcHi = s.crcHi := rfl
@[simp] theorem serClose_crcLo (s : State) : (serClose s).crcLo = s.crcLo := rfl
@[simp] theorem serClose_x (s : State) : (serClose s).x = s.x := rfl
@[simp] theorem serClose_label (s : State) : (serClose s).label = s.label := rfl
@[simp] theorem serClose_err (s : State) : (serClose s).err = s.err := rfl
@[simp] theorem serClose_config (s : State) : (serClose s).config = s.config := rfl
@[simp] theorem serClose_txlog (s : State) : (serClose s).txlog = s.txlog := rfl
@[simp] theorem serClose_table (s : State) : (serClose s).table = s.table := rfl
@[simp] theorem serClose_params (s : State) : (serClose s).params = s.params := rfl
@[simp] theorem serClose_rx (s : State) : (serClose s).rx = s.rx := rfl
@[simp] theorem serClose_host (s : State) : (serClose s).host = s.host := rfl
@[simp] theorem serClose_drawn (s : State) : (serClose s).drawn = s.drawn := rfl
@[simp] theorem serClose_issue (s : State) : (serClose s).issue = s.issue := rfl
@[simp] theorem serClose_ret (s : State) : (serClose s).ret = s.ret := rfl

/-! ### setAck -/

@[simp] theorem setAck_phase (s : State) (r : List Byte) : (s.setAck r).phase = s.phase := rfl
@[simp] theorem setAck_attempt (s : State) (r : List Byte) : (s.setAck r).attempt = s.attempt := rfl
@[simp] theorem setAck_linkOpen (s : State) (r : List Byte) : (s.setAck r).linkOpen = s.linkOpen := rfl
@[simp] theorem setAck_ackbuf0 (s : State) (r : List Byte) : (s.setAck r).ackbuf0 = r.getD 0 (Config.freeByte s.drawn) := rfl
@[simp] theorem setAck_ackbuf1 (s : State) (r : List Byte) : (s.setAck r).ackbuf1 = r.getD 1 (Config.freeByte (s.drawn + 1)) := rfl
@[simp] theorem setAck_acklen (s : State) (r : List Byte) : (s.setAck r).acklen = BitVec.ofNat 2 r.length := rfl
@[simp] theorem setAck_frame (s : State) (r : List Byte) : (s.setAck r).frame = s.frame := rfl
@[simp] theorem setAck_framelen (s : State) (r : List Byte) : (s.setAck r).framelen = s.framelen := rfl
@[simp] theorem setAck_crcHi (s : State) (r : List Byte) : (s.setAck r).crcHi = s.crcHi := rfl
@[simp] theorem setAck_crcLo (s : State) (r : List Byte) : (s.setAck r).crcLo = s.crcLo := rfl
@[simp] theorem setAck_x (s : State) (r : List Byte) : (s.setAck r).x = s.x := rfl
@[simp] theorem setAck_label (s : State) (r : List Byte) : (s.setAck r).label = s.label := rfl
@[simp] theorem setAck_err (s : State) (r : List Byte) : (s.setAck r).err = s.err := rfl
@[simp] theorem setAck_config (s : State) (r : List Byte) : (s.setAck r).config = s.config := rfl
@[simp] theorem setAck_txlog (s : State) (r : List Byte) : (s.setAck r).txlog = s.txlog := rfl
@[simp] theorem setAck_table (s : State) (r : List Byte) : (s.setAck r).table = s.table := rfl
@[simp] theorem setAck_params (s : State) (r : List Byte) : (s.setAck r).params = s.params := rfl
@[simp] theorem setAck_rx (s : State) (r : List Byte) : (s.setAck r).rx = s.rx := rfl
@[simp] theorem setAck_host (s : State) (r : List Byte) : (s.setAck r).host = s.host := rfl
@[simp] theorem setAck_drawn (s : State) (r : List Byte) : (s.setAck r).drawn = s.drawn + 2 := rfl
@[simp] theorem setAck_issue (s : State) (r : List Byte) : (s.setAck r).issue = s.issue := rfl
@[simp] theorem setAck_ret (s : State) (r : List Byte) : (s.setAck r).ret = s.ret := rfl

/-! ### setFrame -/

@[simp] theorem setFrame_phase (s : State) (r : List Byte) : (s.setFrame r).phase = s.phase := rfl
@[simp] theorem setFrame_attempt (s : State) (r : List Byte) : (s.setFrame r).attempt = s.attempt := rfl
@[simp] theorem setFrame_linkOpen (s : State) (r : List Byte) : (s.setFrame r).linkOpen = s.linkOpen := rfl
@[simp] theorem setFrame_ackbuf0 (s : State) (r : List Byte) : (s.setFrame r).ackbuf0 = s.ackbuf0 := rfl
@[simp] theorem setFrame_ackbuf1 (s : State) (r : List Byte) : (s.setFrame r).ackbuf1 = s.ackbuf1 := rfl
@[simp] theorem setFrame_acklen (s : State) (r : List Byte) : (s.setFrame r).acklen = s.acklen := rfl
@[simp] theorem setFrame_frame (s : State) (r : List Byte) : (s.setFrame r).frame = Memory.writeFrom s.frame 0 r := rfl
@[simp] theorem setFrame_framelen (s : State) (r : List Byte) : (s.setFrame r).framelen = BitVec.ofNat 7 r.length := rfl
@[simp] theorem setFrame_crcHi (s : State) (r : List Byte) : (s.setFrame r).crcHi = s.crcHi := rfl
@[simp] theorem setFrame_crcLo (s : State) (r : List Byte) : (s.setFrame r).crcLo = s.crcLo := rfl
@[simp] theorem setFrame_x (s : State) (r : List Byte) : (s.setFrame r).x = s.x := rfl
@[simp] theorem setFrame_label (s : State) (r : List Byte) : (s.setFrame r).label = s.label := rfl
@[simp] theorem setFrame_err (s : State) (r : List Byte) : (s.setFrame r).err = s.err := rfl
@[simp] theorem setFrame_config (s : State) (r : List Byte) : (s.setFrame r).config = s.config := rfl
@[simp] theorem setFrame_txlog (s : State) (r : List Byte) : (s.setFrame r).txlog = s.txlog := rfl
@[simp] theorem setFrame_table (s : State) (r : List Byte) : (s.setFrame r).table = s.table := rfl
@[simp] theorem setFrame_params (s : State) (r : List Byte) : (s.setFrame r).params = s.params := rfl
@[simp] theorem setFrame_rx (s : State) (r : List Byte) : (s.setFrame r).rx = s.rx := rfl
@[simp] theorem setFrame_host (s : State) (r : List Byte) : (s.setFrame r).host = s.host := rfl
@[simp] theorem setFrame_drawn (s : State) (r : List Byte) : (s.setFrame r).drawn = s.drawn := rfl
@[simp] theorem setFrame_issue (s : State) (r : List Byte) : (s.setFrame r).issue = s.issue := rfl
@[simp] theorem setFrame_ret (s : State) (r : List Byte) : (s.setFrame r).ret = s.ret := rfl

/-! ### stationAnswers -/

@[simp] theorem stationAnswers_phase (s : State) (bs : List Byte) : (stationAnswers s bs).phase = s.phase := rfl
@[simp] theorem stationAnswers_attempt (s : State) (bs : List Byte) : (stationAnswers s bs).attempt = s.attempt := rfl
@[simp] theorem stationAnswers_linkOpen (s : State) (bs : List Byte) : (stationAnswers s bs).linkOpen = s.linkOpen := rfl
@[simp] theorem stationAnswers_ackbuf0 (s : State) (bs : List Byte) : (stationAnswers s bs).ackbuf0 = s.ackbuf0 := rfl
@[simp] theorem stationAnswers_ackbuf1 (s : State) (bs : List Byte) : (stationAnswers s bs).ackbuf1 = s.ackbuf1 := rfl
@[simp] theorem stationAnswers_acklen (s : State) (bs : List Byte) : (stationAnswers s bs).acklen = s.acklen := rfl
@[simp] theorem stationAnswers_frame (s : State) (bs : List Byte) : (stationAnswers s bs).frame = s.frame := rfl
@[simp] theorem stationAnswers_framelen (s : State) (bs : List Byte) : (stationAnswers s bs).framelen = s.framelen := rfl
@[simp] theorem stationAnswers_crcHi (s : State) (bs : List Byte) : (stationAnswers s bs).crcHi = s.crcHi := rfl
@[simp] theorem stationAnswers_crcLo (s : State) (bs : List Byte) : (stationAnswers s bs).crcLo = s.crcLo := rfl
@[simp] theorem stationAnswers_x (s : State) (bs : List Byte) : (stationAnswers s bs).x = s.x := rfl
@[simp] theorem stationAnswers_label (s : State) (bs : List Byte) : (stationAnswers s bs).label = s.label := rfl
@[simp] theorem stationAnswers_err (s : State) (bs : List Byte) : (stationAnswers s bs).err = s.err := rfl
@[simp] theorem stationAnswers_config (s : State) (bs : List Byte) : (stationAnswers s bs).config = s.config := rfl
@[simp] theorem stationAnswers_txlog (s : State) (bs : List Byte) : (stationAnswers s bs).txlog = s.txlog := rfl
@[simp] theorem stationAnswers_table (s : State) (bs : List Byte) : (stationAnswers s bs).table = s.table := rfl
@[simp] theorem stationAnswers_params (s : State) (bs : List Byte) : (stationAnswers s bs).params = s.params := rfl
@[simp] theorem stationAnswers_rx (s : State) (bs : List Byte) : (stationAnswers s bs).rx = s.rx ++ [bs] := rfl
@[simp] theorem stationAnswers_host (s : State) (bs : List Byte) : (stationAnswers s bs).host = s.host := rfl
@[simp] theorem stationAnswers_drawn (s : State) (bs : List Byte) : (stationAnswers s bs).drawn = s.drawn := rfl
@[simp] theorem stationAnswers_issue (s : State) (bs : List Byte) : (stationAnswers s bs).issue = s.issue := rfl
@[simp] theorem stationAnswers_ret (s : State) (bs : List Byte) : (stationAnswers s bs).ret = s.ret := rfl

/-! ### raise -/

@[simp] theorem raise_phase (e : ErrCode) (s : State) : (raise e s).phase = .failed := rfl
@[simp] theorem raise_attempt (e : ErrCode) (s : State) : (raise e s).attempt = s.attempt := by
  unfold raise; split <;> rfl
@[simp] theorem raise_linkOpen (e : ErrCode) (s : State) : (raise e s).linkOpen = false := by
  unfold raise; split <;> simp_all
@[simp] theorem raise_ackbuf0 (e : ErrCode) (s : State) : (raise e s).ackbuf0 = s.ackbuf0 := by
  unfold raise; split <;> rfl
@[simp] theorem raise_ackbuf1 (e : ErrCode) (s : State) : (raise e s).ackbuf1 = s.ackbuf1 := by
  unfold raise; split <;> rfl
@[simp] theorem raise_acklen (e : ErrCode) (s : State) : (raise e s).acklen = s.acklen := by
  unfold raise; split <;> rfl
@[simp] theorem raise_frame (e : ErrCode) (s : State) : (raise e s).frame = s.frame := by
  unfold raise; split <;> rfl
@[simp] theorem raise_framelen (e : ErrCode) (s : State) : (raise e s).framelen = s.framelen := by
  unfold raise; split <;> rfl
@[simp] theorem raise_crcHi (e : ErrCode) (s : State) : (raise e s).crcHi = s.crcHi := by
  unfold raise; split <;> rfl
@[simp] theorem raise_crcLo (e : ErrCode) (s : State) : (raise e s).crcLo = s.crcLo := by
  unfold raise; split <;> rfl
@[simp] theorem raise_x (e : ErrCode) (s : State) : (raise e s).x = s.x := by
  unfold raise; split <;> rfl
@[simp] theorem raise_label (e : ErrCode) (s : State) : (raise e s).label = s.label := by
  unfold raise; split <;> rfl
@[simp] theorem raise_err (e : ErrCode) (s : State) : (raise e s).err = e := rfl
@[simp] theorem raise_config (e : ErrCode) (s : State) : (raise e s).config = s.config := by
  unfold raise; split <;> rfl
@[simp] theorem raise_txlog (e : ErrCode) (s : State) : (raise e s).txlog = s.txlog := by
  unfold raise; split <;> rfl
@[simp] theorem raise_table (e : ErrCode) (s : State) : (raise e s).table = s.table := by
  unfold raise; split <;> rfl
@[simp] theorem raise_params (e : ErrCode) (s : State) : (raise e s).params = s.params := by
  unfold raise; split <;> rfl
@[simp] theorem raise_rx (e : ErrCode) (s : State) : (raise e s).rx = s.rx := by
  unfold raise; split <;> rfl
@[simp] theorem raise_host (e : ErrCode) (s : State) : (raise e s).host = s.host := by
  unfold raise; split <;> rfl
@[simp] theorem raise_drawn (e : ErrCode) (s : State) : (raise e s).drawn = s.drawn := by
  unfold raise; split <;> rfl
@[simp] theorem raise_issue (e : ErrCode) (s : State) : (raise e s).issue = s.issue := by
  unfold raise; split <;> rfl
@[simp] theorem raise_ret (e : ErrCode) (s : State) : (raise e s).ret = s.ret := by
  unfold raise; split <;> rfl

/-! ### applyReset -/

@[simp] theorem applyReset_phase (s : State) : (applyReset s).phase = State.reset.phase := rfl
@[simp] theorem applyReset_attempt (s : State) : (applyReset s).attempt = State.reset.attempt := rfl
@[simp] theorem applyReset_linkOpen (s : State) : (applyReset s).linkOpen = State.reset.linkOpen := rfl
@[simp] theorem applyReset_ackbuf0 (s : State) : (applyReset s).ackbuf0 = State.reset.ackbuf0 := rfl
@[simp] theorem applyReset_ackbuf1 (s : State) : (applyReset s).ackbuf1 = State.reset.ackbuf1 := rfl
@[simp] theorem applyReset_acklen (s : State) : (applyReset s).acklen = State.reset.acklen := rfl
@[simp] theorem applyReset_frame (s : State) : (applyReset s).frame = State.reset.frame := rfl
@[simp] theorem applyReset_framelen (s : State) : (applyReset s).framelen = State.reset.framelen := rfl
@[simp] theorem applyReset_crcHi (s : State) : (applyReset s).crcHi = State.reset.crcHi := rfl
@[simp] theorem applyReset_crcLo (s : State) : (applyReset s).crcLo = State.reset.crcLo := rfl
@[simp] theorem applyReset_x (s : State) : (applyReset s).x = State.reset.x := rfl
@[simp] theorem applyReset_label (s : State) : (applyReset s).label = State.reset.label := rfl
@[simp] theorem applyReset_err (s : State) : (applyReset s).err = State.reset.err := rfl
@[simp] theorem applyReset_config (s : State) : (applyReset s).config = State.reset.config := rfl
@[simp] theorem applyReset_txlog (s : State) : (applyReset s).txlog = State.reset.txlog := rfl
@[simp] theorem applyReset_table (s : State) : (applyReset s).table = s.table := rfl
@[simp] theorem applyReset_params (s : State) : (applyReset s).params = s.params := rfl
@[simp] theorem applyReset_rx (s : State) : (applyReset s).rx = s.rx := rfl
@[simp] theorem applyReset_host (s : State) : (applyReset s).host = s.host := rfl
@[simp] theorem applyReset_drawn (s : State) : (applyReset s).drawn = s.drawn := rfl
@[simp] theorem applyReset_issue (s : State) : (applyReset s).issue = State.reset.issue := rfl
@[simp] theorem applyReset_ret (s : State) : (applyReset s).ret = State.reset.ret := rfl

/-! ### The reset state -/

@[simp] theorem reset_phase : State.reset.phase = .idle := rfl
@[simp] theorem reset_attempt : State.reset.attempt = 0 := rfl
@[simp] theorem reset_linkOpen : State.reset.linkOpen = false := rfl
@[simp] theorem reset_ackbuf0 : State.reset.ackbuf0 = 0 := rfl
@[simp] theorem reset_ackbuf1 : State.reset.ackbuf1 = 0 := rfl
@[simp] theorem reset_acklen : State.reset.acklen = 0 := rfl
@[simp] theorem reset_frame : State.reset.frame = [] := rfl
@[simp] theorem reset_framelen : State.reset.framelen = 0 := rfl
@[simp] theorem reset_crcHi : State.reset.crcHi = 0 := rfl
@[simp] theorem reset_crcLo : State.reset.crcLo = 0 := rfl
@[simp] theorem reset_x : State.reset.x = .allAbsent := rfl
@[simp] theorem reset_label : State.reset.label = ⟨false, .unnamed 0⟩ := rfl
@[simp] theorem reset_err : State.reset.err = .noError := rfl
@[simp] theorem reset_config : State.reset.config = .layoutA := rfl
@[simp] theorem reset_txlog : State.reset.txlog = [] := rfl
@[simp] theorem reset_table : State.reset.table = (8, .sunny) :: Config.forecastRest := rfl
@[simp] theorem reset_params : State.reset.params = .default := rfl
@[simp] theorem reset_rx : State.reset.rx = [] := rfl
@[simp] theorem reset_host : State.reset.host = [] := rfl
@[simp] theorem reset_drawn : State.reset.drawn = 0 := rfl
@[simp] theorem reset_issue : State.reset.issue = none := rfl
@[simp] theorem reset_ret : State.reset.ret = 0 := rfl

/-! ### withFetchWord -/

@[simp] theorem withFetchWord_phase (s : State) (n w : Nat) : (s.withFetchWord n w).phase = s.phase := rfl
@[simp] theorem withFetchWord_attempt (s : State) (n w : Nat) : (s.withFetchWord n w).attempt = s.attempt := rfl
@[simp] theorem withFetchWord_linkOpen (s : State) (n w : Nat) : (s.withFetchWord n w).linkOpen = s.linkOpen := rfl
@[simp] theorem withFetchWord_ackbuf0 (s : State) (n w : Nat) : (s.withFetchWord n w).ackbuf0 = s.ackbuf0 := rfl
@[simp] theorem withFetchWord_ackbuf1 (s : State) (n w : Nat) : (s.withFetchWord n w).ackbuf1 = s.ackbuf1 := rfl
@[simp] theorem withFetchWord_acklen (s : State) (n w : Nat) : (s.withFetchWord n w).acklen = s.acklen := rfl
@[simp] theorem withFetchWord_frame (s : State) (n w : Nat) : (s.withFetchWord n w).frame = s.frame := rfl
@[simp] theorem withFetchWord_framelen (s : State) (n w : Nat) : (s.withFetchWord n w).framelen = s.framelen := rfl
@[simp] theorem withFetchWord_crcHi (s : State) (n w : Nat) : (s.withFetchWord n w).crcHi = s.crcHi := rfl
@[simp] theorem withFetchWord_crcLo (s : State) (n w : Nat) : (s.withFetchWord n w).crcLo = s.crcLo := rfl
@[simp] theorem withFetchWord_x (s : State) (n w : Nat) : (s.withFetchWord n w).x = s.x := rfl
@[simp] theorem withFetchWord_label (s : State) (n w : Nat) : (s.withFetchWord n w).label = s.label := rfl
@[simp] theorem withFetchWord_err (s : State) (n w : Nat) : (s.withFetchWord n w).err = s.err := rfl
@[simp] theorem withFetchWord_config (s : State) (n w : Nat) : (s.withFetchWord n w).config = s.config := rfl
@[simp] theorem withFetchWord_txlog (s : State) (n w : Nat) : (s.withFetchWord n w).txlog = s.txlog := rfl
@[simp] theorem withFetchWord_table (s : State) (n w : Nat) : (s.withFetchWord n w).table = s.table := rfl
@[simp] theorem withFetchWord_params (s : State) (n w : Nat) : (s.withFetchWord n w).params = s.params := rfl
@[simp] theorem withFetchWord_rx (s : State) (n w : Nat) : (s.withFetchWord n w).rx = s.rx := rfl
@[simp] theorem withFetchWord_host (s : State) (n w : Nat) : (s.withFetchWord n w).host = s.host := rfl
@[simp] theorem withFetchWord_drawn (s : State) (n w : Nat) : (s.withFetchWord n w).drawn = s.drawn := rfl
@[simp] theorem withFetchWord_ret (s : State) (n w : Nat) : (s.withFetchWord n w).ret = s.ret := rfl

/-! ### The register file -/

@[simp] theorem XFile.get_set_same (x : XFile) (f : Field) (r : XReg) : (x.set f r).get f = r := by
  cases f <;> rfl

theorem XFile.get_set_other (x : XFile) (f g : Field) (r : XReg) (h : g ≠ f) : (x.set f r).get g = x.get g := by
  cases f <;> cases g <;> first | rfl | exact absurd rfl h

/-! ### The two halves of a 16-bit value -/

theorem halves_toNat (h l : Byte) : (halves h l).toNat = l.toNat + 256 * h.toNat := by
  unfold halves
  rw [BitVec.toNat_append, ← Nat.shiftLeft_add_eq_or_of_lt l.isLt, Nat.shiftLeft_eq]
  omega

theorem highHalf_toNat (v : Half) : (highHalf v).toNat = v.toNat / 256 := by
  have := v.isLt
  simp only [highHalf, BitVec.extractLsb'_toNat, Nat.shiftRight_eq_div_pow]
  omega

theorem lowHalf_toNat (v : Half) : (lowHalf v).toNat = v.toNat % 256 := by
  simp [lowHalf, BitVec.extractLsb'_toNat]

@[simp] theorem highHalf_halves (h l : Byte) : highHalf (halves h l) = h := by
  apply BitVec.eq_of_toNat_eq
  have := l.isLt
  rw [highHalf_toNat, halves_toNat]; omega

@[simp] theorem lowHalf_halves (h l : Byte) : lowHalf (halves h l) = l := by
  apply BitVec.eq_of_toNat_eq
  have := l.isLt
  rw [lowHalf_toNat, halves_toNat]; omega

@[simp] theorem halves_high_low (v : Half) : halves (highHalf v) (lowHalf v) = v := by
  apply BitVec.eq_of_toNat_eq
  rw [halves_toNat, highHalf_toNat, lowHalf_toNat]; omega

@[simp] theorem setCrc_crc (s : State) (c : Half) : (s.setCrc c).crc = c := by
  simp [State.crc]

end Sys2Proof.Machine
end

