-- ==== Sys2Proof/Laws/Ops.lean ====
section
/-! SUPPORT. One lemma per shared operation that says once everything it can do; proofs cite it instead of unfolding. -/

namespace Sys2Proof.Machine

@[simp] theorem orFault_ok {α : Type} (v : α) (k : α → Result) : orFault (.ok v) k = k v := rfl

@[simp] theorem orFault_error {α : Type} (f : Fault) (k : α → Result) :
    orFault (.error f : Except Fault α) k = .fault f := rfl

/-- Where a read goes on, it read something. -/
theorem orFault_next {α : Type} {r : Except Fault α} {k : α → Result} {t : State} (h : orFault r k = .next t) :
    ∃ v, r = .ok v ∧ k v = .next t := by
  cases r with
  | ok v => exact ⟨v, rfl, h⟩
  | error f => cases h

theorem serWrite_open {s : State} (h : s.linkOpen = true) (bytes : List Byte) :
    serWrite s bytes = .ok { s with txlog := s.txlog ++ bytes } := by
  simp [serWrite, h]

theorem serWrite_closed {s : State} (h : s.linkOpen = false) (bytes : List Byte) :
    serWrite s bytes = .error .linkClosed := by
  simp [serWrite, h]

/-- A write that completes found the link open and appended its bytes to the transmit stream, nothing else. -/
theorem serWrite_ok {s t : State} {bytes : List Byte} (h : serWrite s bytes = .ok t) :
    s.linkOpen = true ∧ t = { s with txlog := s.txlog ++ bytes } := by
  cases hl : s.linkOpen with
  | true => rw [serWrite_open hl] at h; cases h; exact ⟨rfl, by simp [hl]⟩
  | false => rw [serWrite_closed hl] at h; cases h

/-- The next answer comes from the list, or is drawn; nothing else changes. -/
theorem nextAnswer_cases (s : State) :
    (∃ r rest, s.rx = r :: rest ∧ nextAnswer s = (r, { s with rx := rest })) ∨
      (s.rx = [] ∧ nextAnswer s = (Config.serialAnswer s.drawn, { s with drawn := s.drawn + 1 })) := by
  unfold nextAnswer
  cases h : s.rx with
  | nil => exact .inr ⟨rfl, rfl⟩
  | cons r rest => exact .inl ⟨r, rest, rfl, rfl⟩

/-- What a read leaves in every case: all but the listed answers and the count of drawn values is unchanged. -/
theorem nextAnswer_frame (s : State) :
    (nextAnswer s).2 = { s with rx := (nextAnswer s).2.rx, drawn := (nextAnswer s).2.drawn } := by
  obtain ⟨r, rest, -, h⟩ | ⟨-, h⟩ := nextAnswer_cases s <;> rw [h]

theorem nextAnswer_rx (s : State) : (nextAnswer s).2.rx = s.rx.tail := by
  obtain ⟨r, rest, h', h⟩ | ⟨h', h⟩ := nextAnswer_cases s <;> simp [h, h']

theorem serRead_open {s : State} (h : s.linkOpen = true) (n : Nat) :
    serRead s n = .ok ((nextAnswer s).1.take n, (nextAnswer s).2) := by
  simp [serRead, h]

theorem serRead_closed {s : State} (h : s.linkOpen = false) (n : Nat) : serRead s n = .error .linkClosed := by
  simp [serRead, h]

/-- A read that completes found the link open, returns at most `n` bytes, and takes one answer. -/
theorem serRead_ok {s t : State} {n : Nat} {r : List Byte} (h : serRead s n = .ok (r, t)) :
    s.linkOpen = true ∧ r.length ≤ n ∧ t = { s with rx := s.rx.tail, drawn := t.drawn } := by
  cases hl : s.linkOpen with
  | false => rw [serRead_closed hl] at h; cases h
  | true =>
    rw [serRead_open hl] at h
    cases h
    refine ⟨rfl, by simp, ?_⟩
    have := nextAnswer_frame s
    rw [nextAnswer_rx] at this
    simpa [hl] using this

/-- The error entry, whatever the link was: three fields. -/
theorem raise_eq (e : ErrCode) (s : State) :
    raise e s = { s with linkOpen := false, err := e, phase := .failed } := by
  unfold raise
  cases h : s.linkOpen <;> simp [serClose, h]

theorem fieldResult_absent {s : State} (h : s.config.bearingEn = false) :
    fieldResult s .windBearing = .ok .absent := by
  simp [fieldResult, fieldPresent, h]

/-- A field operation that completes wrote its own result register only. -/
theorem extractField_next {f : Field} {s t : State} (h : extractField f s = .next t) :
    ∃ r, fieldResult s f = .ok r ∧ t = s.setX f r := by
  obtain ⟨r, hr, h⟩ := orFault_next h
  cases h
  exact ⟨r, hr, rfl⟩

/-- A field the layout has, with its raw bits read: the operation completes with the assembled register. -/
theorem extractField_of_raw {f : Field} {s : State} {raw : Half} (hp : fieldPresent s.config f = true)
    (hr : fieldRaw s f = .ok raw) :
    extractField f s = .next (s.setX f (assemble (descriptor s.config f) raw)) := by
  simp only [extractField, fieldResult, hp, hr, if_true, orFault_ok]

/-- A sentinel is absent; anything else is present, with the normalised value where one is given (R58). -/
theorem assemble_cases (d : FieldDesc) (raw : Half) :
    (d.sentinel = some raw ∧ assemble d raw = .absent) ∨
      (d.sentinel ≠ some raw ∧ (assemble d raw).valid = true ∧
        ((assemble d raw).raw = raw ∨ ∃ v', d.normalise = some (raw, v') ∧ (assemble d raw).raw = v')) := by
  unfold assemble
  by_cases h : d.sentinel = some raw
  · simp [h]
  · rw [if_neg h]
    refine .inr ⟨h, ?_⟩
    cases hn : d.normalise with
    | none => simp
    | some p =>
      obtain ⟨v, v'⟩ := p
      by_cases hv : raw = v <;> simp [hv]

/-- The step of the block, by what is pending. -/
theorem step_issued {s : State} {f : Format} {bytes : List Byte} (h : s.issue = some (f, bytes)) :
    step s = runBytes f bytes { s with issue := none } := by
  simp [step, blockStep, h]

theorem step_host {s : State} {c : HostCmd} {rest : List HostCmd} (h : s.issue = none) (hh : s.host = c :: rest) :
    step s = hostStep c { s with host := rest } := by
  simp [step, blockStep, h, hh]

theorem step_alone {s : State} (h : s.issue = none) (hh : s.host = []) : step s = sequencerStep s := by
  simp [step, blockStep, h, hh]

theorem runBytes_ok {f : Format} {bytes rest : List Byte} {i : Instr} (h : decode f bytes = .ok (i, rest)) (s : State) :
    runBytes f bytes s = exec i s := by
  simp [runBytes, h]

/-! ### The transform and the codes -/

@[simp] theorem crcMix_nil (p : CrcPair) : crcMix [] p = p := rfl

@[simp] theorem crcMix_cons (op : CrcOp) (transform : List CrcOp) (p : CrcPair) :
    crcMix (op :: transform) p = crcMix transform (crcOp p op) := rfl

/-- What a line of a transform can do: XOR a shifted byte into one of the two. -/
theorem crcOp_cases (p : CrcPair) (op : CrcOp) :
    (op.target = .x ∧ crcOp p op = ⟨p.x ^^^ shiftByte (p.get op.source) op.dir op.amount, p.y⟩) ∨
      (op.target = .y ∧ crcOp p op = ⟨p.x, p.y ^^^ shiftByte (p.get op.source) op.dir op.amount⟩) := by
  unfold crcOp
  cases op.target with
  | x => exact .inl ⟨rfl, rfl⟩
  | y => exact .inr ⟨rfl, rfl⟩

/-- What well-formedness of a transform gives. -/
theorem crcWellFormed_iff (transform : List CrcOp) :
    crcWellFormed transform = true ↔
      hasCrossShift transform 4 = true ∧ hasCrossShift transform 3 = true ∧
        (∀ l : Byte, crcMix transform ⟨0, l⟩ = ⟨0, l⟩) ∧
          ∀ h : Byte, h ≠ 0 → (crcMix transform ⟨h, 0⟩).x ≠ 0 := by
  simp only [crcWellFormed, Bool.and_eq_true, decide_eq_true_eq, and_assoc]

@[simp] theorem crc16_nil (transform : List CrcOp) (init : Half) : crc16 transform [] init = init := rfl

@[simp] theorem crc16_cons (transform : List CrcOp) (b : Byte) (s : List Byte) (init : Half) :
    crc16 transform (b :: s) init = crc16 transform s (crcStep transform init b) := rfl

@[simp] theorem errCode_noError (codes : ErrCodes) : ErrCode.noError.code codes = 0 := rfl

/-! ### Table words -/

theorem fetchWord_of_tableWord {nbits w : Nat} {p : Format × List Byte} (h : tableWord nbits w = some p) :
    fetchWord nbits w = p := by
  simp only [fetchWord, h]

end Sys2Proof.Machine
end

