-- ==== Sys2Proof/Laws/Exec.lean ====
section
/-! SUPPORT. For each meaning that can stop, one lemma that says everything its next state can be. The other meanings are
their own next states. -/

namespace Sys2Proof.Machine

theorem execHsProbe_next {s t : State} (h : execHsProbe s = .next t) :
    s.linkOpen = true ∧
      t = { s with attempt := nextAttempt s, txlog := s.txlog ++ wakeBytes, phase := .hsRdack } := by
  obtain ⟨u, hu, h⟩ := orFault_next h
  obtain ⟨hl, rfl⟩ := serWrite_ok hu
  cases h
  exact ⟨hl, rfl⟩

theorem execHsRdack_next {s t : State} (h : execHsRdack s = .next t) :
    ∃ r : List Byte, s.linkOpen = true ∧ r = (nextAnswer s).1.take 2 ∧
      t = { s with
        acklen := BitVec.ofNat 2 r.length, ackbuf0 := t.ackbuf0, ackbuf1 := t.ackbuf1, rx := s.rx.tail,
        drawn := t.drawn, phase := .hsCmp } ∧
      (∀ b, r[0]? = some b → t.ackbuf0 = b) ∧ (∀ b, r[1]? = some b → t.ackbuf1 = b) := by
  obtain ⟨⟨r, u⟩, hu, h⟩ := orFault_next h
  obtain ⟨hl, -, e⟩ := serRead_ok hu
  rw [serRead_open hl] at hu
  have hr : (nextAnswer s).1.take 2 = r := congrArg Prod.fst (Except.ok.inj hu)
  cases h
  refine ⟨r, hl, hr.symm, ?_, fun b hb => ?_, fun b hb => ?_⟩
  · conv_lhs => rw [e]
    rfl
  · simp [State.setAck, List.getD, hb]
  · simp [State.setAck, List.getD, hb]

theorem execAcqReq_next {s t : State} (h : execAcqReq s = .next t) :
    s.linkOpen = true ∧ t = { s with txlog := s.txlog ++ loop1Bytes, phase := .acqRead } := by
  obtain ⟨u, hu, h⟩ := orFault_next h
  obtain ⟨hl, rfl⟩ := serWrite_ok hu
  cases h
  exact ⟨hl, rfl⟩

theorem execAcqRead_next {s t : State} (h : execAcqRead s = .next t) :
    ∃ r : List Byte, s.linkOpen = true ∧ r = (nextAnswer s).1.take 100 ∧
      t = { s with
        framelen := BitVec.ofNat 7 r.length, frame := Memory.writeFrom s.frame 0 r, rx := s.rx.tail,
        drawn := t.drawn, phase := .acqClose } := by
  obtain ⟨⟨r, u⟩, hu, h⟩ := orFault_next h
  obtain ⟨hl, -, e⟩ := serRead_ok hu
  rw [serRead_open hl] at hu
  have hr : (nextAnswer s).1.take 100 = r := congrArg Prod.fst (Except.ok.inj hu)
  cases h
  refine ⟨r, hl, hr.symm, ?_⟩
  conv_lhs => rw [e]
  rw [e]
  rfl

theorem execHsCmp_next {s t : State} (h : execHsCmp s = .next t) :
    (ackMatches s = true ∧ t = { s with phase := .acqReq }) ∨
      (ackMatches s = false ∧ s.attempt.toNat < 3 ∧ t = { s with phase := .hsProbe }) ∨
      (ackMatches s = false ∧ ¬ s.attempt.toNat < 3 ∧
        t = { s with linkOpen := false, err := .stationNotReady, phase := .failed }) := by
  unfold execHsCmp at h
  cases h
  cases hm : ackMatches s with
  | true => exact .inl ⟨rfl, by simp [State.goto]⟩
  | false =>
    by_cases ha : s.attempt.toNat < 3
    · exact .inr (.inl ⟨rfl, ha, by simp [ha, State.goto]⟩)
    · exact .inr (.inr ⟨rfl, ha, by simp [ha, raise_eq]⟩)

theorem execAcqLen_next {s t : State} (h : execAcqLen s = .next t) :
    (s.framelen.toNat < 100 ∧ t = { s with linkOpen := false, err := .incompleteData, phase := .failed }) ∨
      (100 ≤ s.framelen.toNat ∧ t = { s with phase := .decEnv }) := by
  unfold execAcqLen at h
  cases h
  by_cases hf : s.framelen.toNat < 100
  · exact .inl ⟨hf, by simp [hf, Config.frameLen, raise_eq]⟩
  · exact .inr ⟨by omega, by simp [hf, Config.frameLen, State.goto]⟩

theorem execDecEnv_next {s t : State} (h : execDecEnv s = .next t) :
    (shapeOf s = .ok true ∧ t = { s with phase := .decCrc }) ∨
      (shapeOf s = .ok false ∧ t = { s with linkOpen := false, err := .malformedPacket, phase := .failed }) := by
  obtain ⟨b, hb, h⟩ := orFault_next h
  cases h
  cases b with
  | true => exact .inl ⟨hb, rfl⟩
  | false => exact .inr ⟨hb, by simp [raise_eq]⟩

theorem execDecCrc_next {s t : State} (h : execDecCrc s = .next t) :
    ∃ p : List Byte, readBytes s 1 99 = .ok p ∧
      ((crc16 s.params.crcStep p 0 = 0 ∧ t = (s.setCrc (crc16 s.params.crcStep p 0)).goto .decFx) ∨
        (crc16 s.params.crcStep p 0 ≠ 0 ∧ t = { s.setCrc (crc16 s.params.crcStep p 0) with
          linkOpen := false, err := .malformedPacket, phase := .failed })) := by
  obtain ⟨p, hp, h⟩ := orFault_next h
  refine ⟨p, hp, ?_⟩
  cases h
  have hc : crcIsZero (s.setCrc (crc16 s.params.crcStep p 0)) = decide (crc16 s.params.crcStep p 0 = 0) := by
    simp only [crcIsZero, setCrc_crc]
  by_cases hz : crc16 s.params.crcStep p 0 = 0
  · exact .inl ⟨hz, if_pos (by rw [hc]; exact decide_eq_true hz)⟩
  · exact .inr ⟨hz, (if_neg (by rw [hc]; simpa only [decide_eq_true_eq] using hz)).trans (raise_eq _ _)⟩

theorem execDecFx_next {s t : State} (h : execDecFx s = .next t) :
    ∃ x, allFields s = .ok x ∧
      t = { s with x := x, phase := if s.config.forecastEn then .fcMap else .done } := by
  obtain ⟨x, hx, h⟩ := orFault_next h
  cases h
  exact ⟨x, hx, rfl⟩

theorem execFcMap_next {s t : State} (h : execFcMap s = .next t) :
    (∃ l, tableLookup s.table (iconCode s) = some l ∧ t = { s with label := ⟨true, l⟩, phase := .done }) ∨
      (tableLookup s.table (iconCode s) = none ∧
        t = { s with linkOpen := false, err := .unknownForecastCode, phase := .failed }) := by
  unfold execFcMap at h
  cases hl : tableLookup s.table (iconCode s) with
  | some l => rw [hl] at h; cases h; exact .inl ⟨l, rfl, rfl⟩
  | none => rw [hl] at h; cases h; exact .inr ⟨rfl, raise_eq _ _⟩

theorem execLdU8_next {o : Offset} {s t : State} (h : execLdU8 o s = .next t) :
    ∃ v, loadU8 s o = .ok v ∧ t = { s with ret := v } := by
  obtain ⟨v, hv, h⟩ := orFault_next h
  cases h
  exact ⟨v, hv, rfl⟩

theorem execLdU16le_next {o : Offset} {s t : State} (h : execLdU16le o s = .next t) :
    ∃ v, loadU16 s o = .ok v ∧ t = { s with ret := v } := by
  obtain ⟨v, hv, h⟩ := orFault_next h
  cases h
  exact ⟨v, hv, rfl⟩

theorem execWake_next {s t : State} (h : execWake s = .next t) :
    s.linkOpen = true ∧ t = { s with txlog := s.txlog ++ wakeBytes } := by
  obtain ⟨u, hu, h⟩ := orFault_next h
  obtain ⟨hl, rfl⟩ := serWrite_ok hu
  cases h
  exact ⟨hl, rfl⟩

theorem execLoop1_next {s t : State} (h : execLoop1 s = .next t) :
    s.linkOpen = true ∧ t = { s with txlog := s.txlog ++ loop1Bytes } := by
  obtain ⟨u, hu, h⟩ := orFault_next h
  obtain ⟨hl, rfl⟩ := serWrite_ok hu
  cases h
  exact ⟨hl, rfl⟩

end Sys2Proof.Machine
end

