-- ==== Sys2Proof/Laws/PerInstr.lean ====
section
/-! SUPPORT. The statements made per instruction. EncodedLength: the lengths a format allows (30_encoding.md R50, R61). -/

namespace Sys2Proof.Laws.EncodedLength

/-- The byte lengths of a format (R50); an OPID stands alone or before one or two operand bytes. -/
def lengths : Format → List Nat
  | .op => [1, 2, 3]
  | .wireTx => [1, 7]
  | .wireRxAck => [2]
  | .wireRxFrame => [100]
  | .field .pressure | .field .temperature | .field .windBearing => [2]
  | .field .windSpeed | .field .humidity | .field .icon => [1]

/-- A well-formed instruction is encoded in a length of its format. -/
def Statement (i : Instr) : Prop := i.wellFormed = true → (encode i).length ∈ lengths i.format

theorem start : Statement .start := fun _ => by decide
theorem hsProbe : Statement .hsProbe := fun _ => by decide
theorem hsRdack : Statement .hsRdack := fun _ => by decide
theorem hsCmp : Statement .hsCmp := fun _ => by decide
theorem acqReq : Statement .acqReq := fun _ => by decide
theorem acqRead : Statement .acqRead := fun _ => by decide
theorem acqClose : Statement .acqClose := fun _ => by decide
theorem acqLen : Statement .acqLen := fun _ => by decide
theorem decEnv : Statement .decEnv := fun _ => by decide
theorem decCrc : Statement .decCrc := fun _ => by decide
theorem crcInit (init : Half) : Statement (.crcInit init) := fun _ => by simp [encode, lengths, Instr.format]
theorem crcUpdate (b : Byte) : Statement (.crcUpdate b) := fun _ => by simp [encode, lengths, Instr.format]
theorem crcResult : Statement .crcResult := fun _ => by decide
theorem crcCheck : Statement .crcCheck := fun _ => by decide
theorem decFx : Statement .decFx := fun _ => by decide
theorem fxPressure : Statement .fxPressure := fun _ => by decide
theorem fxTemp : Statement .fxTemp := fun _ => by decide
theorem fxWind : Statement .fxWind := fun _ => by decide
theorem fxBearing : Statement .fxBearing := fun _ => by decide
theorem fxHum : Statement .fxHum := fun _ => by decide
theorem fxIcon : Statement .fxIcon := fun _ => by decide
theorem ldU8 (off : Offset) : Statement (.ldU8 off) := fun _ => by simp [encode, lengths, Instr.format]
theorem ldU16le (off : Offset) : Statement (.ldU16le off) := fun _ => by simp [encode, lengths, Instr.format]
theorem fcMap : Statement .fcMap := fun _ => by decide
theorem haltOk : Statement .haltOk := fun _ => by decide
theorem haltErr : Statement .haltErr := fun _ => by decide
theorem wake : Statement .wake := fun _ => by decide
theorem loop1 : Statement .loop1 := fun _ => by decide
theorem ack : Statement .ack := fun _ => by decide
theorem frame (body : List Byte) (chkHi chkLo : Byte) : Statement (.frame body chkHi chkLo) := fun h => by
  have h : body.length = 92 := by simpa [Instr.wellFormed] using h
  simp [encode, frameHead, frameTrailer, lengths, Instr.format, h]
theorem fieldPressure (raw : Half) : Statement (.fieldPressure raw) := fun _ => by simp [encode, lengths, Instr.format]
theorem fieldTemperature (raw : Half) : Statement (.fieldTemperature raw) := fun _ => by simp [encode, lengths, Instr.format]
theorem fieldWindSpeed (raw : Byte) : Statement (.fieldWindSpeed raw) := fun _ => by simp [encode, lengths, Instr.format]
theorem fieldWindBearing (raw : Half) : Statement (.fieldWindBearing raw) := fun _ => by simp [encode, lengths, Instr.format]
theorem fieldHumidity (raw : Byte) : Statement (.fieldHumidity raw) := fun _ => by simp [encode, lengths, Instr.format]
theorem fieldIcon (raw : Byte) : Statement (.fieldIcon raw) := fun _ => by simp [encode, lengths, Instr.format]

end Sys2Proof.Laws.EncodedLength
end

