-- ==== Sys2Proof/Laws/Run.lean ====
section
/-! SUPPORT. How runs of several steps unfold, one step at a time. -/

namespace Sys2Proof.Machine

@[simp] theorem run_zero (s : State) : core.run 0 s = .next s := rfl

theorem run_next {s t : State} (h : step s = .next t) (n : Nat) : core.run (n + 1) s = core.run n t := by
  have h' : core.step s = .next t := h
  simp only [Host.Core.run, h']

theorem run_fault {s : State} {f : Fault} (h : step s = .fault f) (n : Nat) : core.run (n + 1) s = .fault f := by
  have h' : core.step s = .fault f := h
  simp only [Host.Core.run, h']

theorem run_refused {s : State} {r : Refusal} (h : step s = .refused r) (n : Nat) :
    core.run (n + 1) s = .refused r := by
  have h' : core.step s = .refused r := h
  simp only [Host.Core.run, h']

/-- A run of `m + n` steps is a run of `m` and then one of `n`. -/
theorem run_add (m n : Nat) : ∀ s : State, core.run (m + n) s =
    match core.run m s with
    | .next t => core.run n t
    | .fault f => .fault f
    | .refused r => .refused r := by
  induction m with
  | zero => intro s; simp
  | succ m ih =>
    intro s
    rw [Nat.add_right_comm]
    cases h : step s with
    | next t => rw [run_next h, run_next h]; exact ih t
    | fault f => rw [run_fault h, run_fault h]
    | refused r => rw [run_refused h, run_refused h]

/-- With nothing issued and the host quiet, the step of a phase is its operation. -/
theorem step_of_phase {s : State} (h : s.issue = none) (hh : s.host = []) (hi : s.phase ≠ .idle) :
    step s = runBytes .op [s.phase.opid] s := by
  rw [step_alone h hh, sequencerStep, if_neg hi]

end Sys2Proof.Machine
end

