-- ==== Sys2Proof/Tests/Slice0.lean ====
section
/-! SUPPORT. The model's own tests. Expected results are the spec's vectors and worked examples (95_test_vectors.md, and
the "Example" lines of the operation rules), or the encodings of 30_encoding.md written out by hand. The witness
theorems show, for each statement with hypotheses, a concrete state and operands that meet them. -/

namespace Sys2Proof.Tests

open Sys2Proof.Machine

set_option Elab.async false

/-! ### Helpers -/

/-- What a result shows of its next state; nothing where it is a stop. -/
def after {α : Type} (r : Result) (f : State → α) : Option α :=
  match r with
  | .next s => some (f s)
  | .fault _ => none
  | .refused _ => none

/-- The fault of a result. -/
def stop (r : Result) : Option Fault :=
  match r with
  | .fault f => some f
  | .next _ => none
  | .refused _ => none

/-- A byte string with some bytes replaced. -/
def patch (base : List Byte) : List (Nat × Byte) → List Byte
  | [] => base
  | (a, v) :: rest => patch (base.set a v) rest

/-- 100 zero bytes inside the envelope; the trailer is zero too. -/
def blank : List Byte :=
  patch (List.replicate 100 0) [(0, 0x06), (1, 0x4C), (2, 0x4F), (3, 0x4F), (96, 0x0A), (97, 0x0D)]

/-- Frame F1 (95_test_vectors.md section 1). -/
def frameF1 : List Byte :=
  patch blank [(8, 0xAD), (9, 0x75), (13, 0xD7), (15, 0xFF), (17, 0x0E), (18, 0x01), (33, 0x32), (90, 0x08),
    (98, 0x6F), (99, 0x44)]

/-- Frame F3: extremes and the bearing normalisation. -/
def frameF3 : List Byte :=
  patch blank [(8, 0xFF), (9, 0xFF), (13, 0xF6), (14, 0xFF), (17, 0x68), (18, 0x01), (90, 0x02), (98, 0x57), (99, 0x0A)]

/-- The reset state with the table of the vectors, {8: "sunny"}. -/
def idleState : State := { State.reset with table := [(8, .sunny)] }

/-- A state of a run in a phase that finds the link open. -/
def openState (p : Phase) : State := { idleState with phase := p, linkOpen := true, attempt := 1, txlog := wakeBytes }

/-- A state after the close, with a frame in the buffer and the handshake and request behind it. -/
def loaded (p : Phase) (f : List Byte) : State :=
  { idleState.setFrame f with
    phase := p, attempt := 1, acklen := 2, ackbuf0 := 0x0A, ackbuf1 := 0x0D, txlog := wakeBytes ++ loop1Bytes }

/-- A frame that holds one or two bytes at a frame address, zero elsewhere. -/
def oneField (a : Nat) (lo hi : Byte) : State := loaded .decFx (patch blank [(a, lo), (a + 1, hi)])

/-! ### Well-formedness: an ill-formed term for each check -/

theorem test_wellFormed_ldU8_last : (Instr.ldU8 98).wellFormed = true := by decide
theorem test_wellFormed_ldU8_beyond : (Instr.ldU8 99).wellFormed = false := by decide
theorem test_wellFormed_ldU16le_last : (Instr.ldU16le 97).wellFormed = true := by decide
theorem test_wellFormed_ldU16le_beyond : (Instr.ldU16le 98).wellFormed = false := by decide
theorem test_wellFormed_frame_body : (Instr.frame (List.replicate 91 0) 0 0).wellFormed = false := by decide
theorem test_wellFormed_layoutA : ConfigReg.layoutA.wellFormed = true := by decide
theorem test_wellFormed_pressure : { ConfigReg.layoutA with pressureOff := 98 }.wellFormed = false := by decide
theorem test_wellFormed_temperature : { ConfigReg.layoutA with tempOff := 98 }.wellFormed = false := by decide
theorem test_wellFormed_wind : { ConfigReg.layoutA with windOff := 99 }.wellFormed = false := by decide
theorem test_wellFormed_bearing : { ConfigReg.layoutA with bearingOff := 98 }.wellFormed = false := by decide
theorem test_wellFormed_bearing_ignored :
    { ConfigReg.layoutA with bearingOff := 98, bearingEn := false }.wellFormed = true := by decide
theorem test_wellFormed_humidity : { ConfigReg.layoutA with humOff := 99 }.wellFormed = false := by decide
/-- Each check of R86's: the cross-shift by 4, the cross-shift by 3, the zero residue (a line that takes the low half
into the mixed byte), and a byte that is lost. -/
theorem test_wellFormed_transform :
    crcWellFormed CrcOp.default = true ∧
    crcWellFormed [⟨.x, .x, .right, 4⟩, ⟨.y, .x, .right, 3⟩, ⟨.x, .x, .left, 5⟩] = false ∧
    crcWellFormed [⟨.x, .x, .right, 4⟩, ⟨.y, .x, .left, 4⟩, ⟨.x, .x, .left, 5⟩] = false ∧
    crcWellFormed (⟨.x, .y, .left, 0⟩ :: CrcOp.default) = false ∧
    crcWellFormed (CrcOp.default ++ [⟨.x, .x, .left, 0⟩]) = false := by decide +kernel
theorem test_wellFormed_codes :
    ErrCodes.default.wellFormed = true ∧ (ErrCodes.mk 1 2 0 4).wellFormed = false ∧
      (ErrCodes.mk 1 2 3 1).wellFormed = false := by decide
theorem test_wellFormed_icon : { ConfigReg.layoutA with iconOff := 99 }.wellFormed = false := by decide

/-! ### Decoding: the spec's words of R51 to R54, R56 and R59, one for each constructor -/

theorem test_decode_start : decode .op [0x00#8] = .ok (.start, []) := rfl
theorem test_decode_hsProbe : decode .op [0x10#8] = .ok (.hsProbe, []) := rfl
theorem test_decode_hsRdack : decode .op [0x20#8] = .ok (.hsRdack, []) := rfl
theorem test_decode_hsCmp : decode .op [0x30#8] = .ok (.hsCmp, []) := rfl
theorem test_decode_acqReq : decode .op [0x40#8] = .ok (.acqReq, []) := rfl
theorem test_decode_acqRead : decode .op [0x50#8] = .ok (.acqRead, []) := rfl
theorem test_decode_acqClose : decode .op [0x60#8] = .ok (.acqClose, []) := rfl
theorem test_decode_acqLen : decode .op [0x70#8] = .ok (.acqLen, []) := rfl
theorem test_decode_decEnv : decode .op [0x80#8] = .ok (.decEnv, []) := rfl
theorem test_decode_decCrc : decode .op [0x90#8] = .ok (.decCrc, []) := rfl
theorem test_decode_crcInit : decode .op [0x91#8, 0xAB#8, 0xCD#8] = .ok (.crcInit 0xABCD, []) := rfl
theorem test_decode_crcUpdate : decode .op [0x92#8, 0x4C#8] = .ok (.crcUpdate 0x4C, []) := rfl
theorem test_decode_crcResult : decode .op [0x93#8] = .ok (.crcResult, []) := rfl
theorem test_decode_crcCheck : decode .op [0x94#8] = .ok (.crcCheck, []) := rfl
theorem test_decode_decFx : decode .op [0xA0#8] = .ok (.decFx, []) := rfl
theorem test_decode_fxPressure : decode .op [0xA1#8] = .ok (.fxPressure, []) := rfl
theorem test_decode_fxTemp : decode .op [0xA2#8] = .ok (.fxTemp, []) := rfl
theorem test_decode_fxWind : decode .op [0xA3#8] = .ok (.fxWind, []) := rfl
theorem test_decode_fxBearing : decode .op [0xA4#8] = .ok (.fxBearing, []) := rfl
theorem test_decode_fxHum : decode .op [0xA5#8] = .ok (.fxHum, []) := rfl
theorem test_decode_fxIcon : decode .op [0xA6#8] = .ok (.fxIcon, []) := rfl
theorem test_decode_ldU8 : decode .op [0xA8#8, 14#8] = .ok (.ldU8 14, []) := rfl
theorem test_decode_ldU16le : decode .op [0xA9#8, 7#8] = .ok (.ldU16le 7, []) := rfl
theorem test_decode_fcMap : decode .op [0xB0#8] = .ok (.fcMap, []) := rfl
theorem test_decode_haltOk : decode .op [0xC0#8] = .ok (.haltOk, []) := rfl
theorem test_decode_haltErr : decode .op [0xD0#8] = .ok (.haltErr, []) := rfl
theorem test_decode_no_operation : decode .op [0xA7#8] = .error (.noOperation 0xA7) := rfl
theorem test_decode_truncated : decode .op [0x91#8, 0x00#8] = .error .truncated := rfl
theorem test_decode_wake : decode .wireTx [0x0A#8] = .ok (.wake, []) := rfl
theorem test_decode_loop1 :
    decode .wireTx [0x4C#8, 0x4F#8, 0x4F#8, 0x50#8, 0x20#8, 0x31#8, 0x0A#8] = .ok (.loop1, []) := rfl
theorem test_decode_not_a_command : decode .wireTx [0x0D#8] = .error .notACommand := rfl
theorem test_decode_ack : decode .wireRxAck [0x0A#8, 0x0D#8] = .ok (.ack, []) := rfl

/-- Frame F1 is read as the envelope with F1's body and its trailer, high half first (R31, R54). -/
theorem test_decode_frame :
    (match decode .wireRxFrame frameF1 with
     | .ok (.frame body hi lo, rest) => decide (body = (frameF1.drop 4).take 92 ∧ hi = 0x6F ∧ lo = 0x44 ∧ rest = [])
     | _ => false) = true := by decide +kernel

/-- V-ENV-4: the two literal bytes in the wrong order are no frame. -/
theorem test_decode_not_a_frame :
    (match decode .wireRxFrame (patch frameF1 [(96, 0x0D), (97, 0x0A)]) with
     | .error .notAFrame => true
     | _ => false) = true := by decide +kernel

theorem test_decode_fieldPressure : decode (.field .pressure) [0xAD#8, 0x75#8] = .ok (.fieldPressure 30125, []) := rfl
theorem test_decode_fieldTemperature :
    decode (.field .temperature) [0xFF#8, 0x7F#8] = .ok (.fieldTemperature 32767, []) := rfl
theorem test_decode_fieldWindSpeed : decode (.field .windSpeed) [0xFF#8] = .ok (.fieldWindSpeed 255, []) := rfl
theorem test_decode_fieldWindBearing :
    decode (.field .windBearing) [0x68#8, 0x01#8] = .ok (.fieldWindBearing 360, []) := rfl
theorem test_decode_fieldHumidity : decode (.field .humidity) [0x32#8] = .ok (.fieldHumidity 50, []) := rfl
theorem test_decode_fieldIcon : decode (.field .icon) [0x08#8] = .ok (.fieldIcon 8, []) := rfl

/-! ### Table words -/

theorem test_tableWord_op : decodeTableWord 8 0xB0 = some .fcMap := by decide
theorem test_tableWord_wake : decodeTableWord 8 0x0A = some .wake := by decide
theorem test_tableWord_loop1 : decodeTableWord 56 0x4C4F4F5020310A = some .loop1 := by decide
theorem test_tableWord_ack : decodeTableWord 16 0x0A0D = some .ack := by decide
theorem test_tableWord_none : decodeTableWord 8 0xE0 = none := by decide

/-- FRAME: the fixed bits of the row's pattern, its free bits zero. -/
theorem test_tableWord_frame :
    decodeTableWord 800 (0x064C4F4F * 256 ^ 96 + 0x0A0D * 256 ^ 2) = some (.frame (List.replicate 92 0) 0 0) := by
  decide +kernel

/-- The step after `withFetchWord` runs the word: CRC.RESULT as the first instruction after reset. -/
theorem test_withFetchWord : after (step (State.reset.withFetchWord 8 0x93)) (fun t => t.ret) = some 0 := by decide

/-- A word of no row is refused, not run as the OPID in its first byte (R60; log entry 22). -/
theorem test_withFetchWord_no_row :
    step (State.reset.withFetchWord 16 0) = .refused (.undecodable .notAck) ∧
      step (State.reset.withFetchWord 8 0xE0) = .refused (.undecodable (.noOperation 0xE0)) ∧
      step (State.reset.withFetchWord 56 0) = .refused (.undecodable .notACommand) := ⟨rfl, rfl, rfl⟩

/-! ### Reset, host and sequencing -/

/-- IDLE waits for START (R12). -/
theorem test_reset_waits : after (step State.reset) (fun t => (t.phase, t.linkOpen)) = some (.idle, false) := by decide

/-- Example of R70, through the host's command. -/
theorem test_host_start :
    after (step { State.reset with host := [.start] }) (fun t => (t.phase, t.linkOpen, t.attempt)) =
      some (.hsProbe, true, 0) := by decide

/-- 95_test_vectors.md section 4: STATUS reads 0x02C in DONE. -/
theorem test_status_done : status { idleState with phase := .done } = 0x02C#9 := by decide

/-- 95_test_vectors.md section 4: STATUS reads 0x04D in FAILED. -/
theorem test_status_failed : status { idleState with phase := .failed } = 0x04D#9 := by decide

/-! ### One step of each instruction -/

/-- START in DONE is ignored (R70). -/
theorem test_start_ignored : after (exec .start { idleState with phase := .done }) (fun t => (t.phase, t.linkOpen)) =
    some (.done, false) := by decide

/-- Example of R90. -/
theorem test_hsProbe : after (exec .hsProbe { openState .hsProbe with attempt := 0, txlog := [] })
    (fun t => (t.attempt, t.txlog, t.phase)) = some (1, [0x0A#8], .hsRdack) := by decide

/-- Example of R91; a third byte stays with the environment. -/
theorem test_hsRdack : after (exec .hsRdack { openState .hsRdack with rx := [[0x0A, 0x0D, 0x06]] })
    (fun t => (t.acklen, t.ackbuf0, t.ackbuf1, t.rx)) = some (2, 0x0A, 0x0D, []) := by decide

/-- Example of R92: ATTEMPT = 2, ACKLEN = 0. -/
theorem test_hsCmp_retries : after (exec .hsCmp { openState .hsCmp with attempt := 2 }) (fun t => (t.phase, t.err)) =
    some (.hsProbe, .noError) := by decide

/-- Example of R92: ATTEMPT = 3, ACKBUF = 0D 0A. -/
theorem test_hsCmp_fails :
    after (exec .hsCmp { openState .hsCmp with attempt := 3, acklen := 2, ackbuf0 := 0x0D, ackbuf1 := 0x0A })
      (fun t => (t.phase, t.err.code t.params.errCodes, t.linkOpen)) = some (.failed, 1, false) := by decide

/-- Example of R100. -/
theorem test_acqReq : after (exec .acqReq (openState .acqReq)) (fun t => t.txlog) =
    some [0x0A#8, 0x4C#8, 0x4F#8, 0x4F#8, 0x50#8, 0x20#8, 0x31#8, 0x0A#8] := by decide

/-- R101: a short answer; the bytes beyond it have no value. -/
theorem test_acqRead : after (exec .acqRead { openState .acqRead with rx := [[0x06, 0x4C]] })
    (fun t => (t.framelen, (readBytes t 0 2).toOption, (readByte t 2).toOption)) =
      some (2, some [0x06#8, 0x4C#8], none) := by decide

/-- Example of R102. -/
theorem test_acqClose : after (exec .acqClose (openState .acqClose)) (fun t => (t.linkOpen, t.phase)) =
    some (false, .acqLen) := by decide

/-- V-ACQ-4: 99 bytes are IncompleteData. -/
theorem test_acqLen_short : after (exec .acqLen { idleState with phase := .acqLen, framelen := 99 })
    (fun t => (t.phase, t.err.code t.params.errCodes)) = some (.failed, 2) := by decide

/-- V-ENV-1. -/
theorem test_decEnv : after (exec .decEnv (loaded .decEnv frameF1)) (fun t => t.phase) = some .decCrc := by
  decide +kernel

/-- V-ENV-3: prefix "LOP". -/
theorem test_decEnv_prefix : after (exec .decEnv (loaded .decEnv (patch frameF1 [(3, 0x50)])))
    (fun t => (t.phase, t.err.code t.params.errCodes)) = some (.failed, 3) := by decide +kernel

/-- V-CRC-22: F1's payload leaves 0x0000. -/
theorem test_decCrc : after (exec .decCrc (loaded .decCrc frameF1)) (fun t => (t.phase, t.crc)) =
    some (.decFx, 0x0000) := by decide +kernel

/-- V-ENV-5: the trailer bytes swapped leave 0x4F15. -/
theorem test_decCrc_swapped : after (exec .decCrc (loaded .decCrc (patch frameF1 [(98, 0x44), (99, 0x6F)])))
    (fun t => (t.phase, t.crc, t.err.code t.params.errCodes)) = some (.failed, 0x4F15, 3) := by decide +kernel

theorem test_crcInit : after (exec (.crcInit 0xABCD) idleState) (fun t => (t.crcHi, t.crcLo)) = some (0xAB, 0xCD) := by
  decide

/-- V-STEP-7. -/
theorem test_crcUpdate : after (exec (.crcUpdate 0x56) { idleState with crcHi := 0x12, crcLo := 0x34 })
    (fun t => (t.crcHi, t.crcLo)) = some (0x3C, 0x40) := by decide

/-- V-STEP-11. -/
theorem test_crcUpdate_trailer : after (exec (.crcUpdate 0x6F) { idleState with crcHi := 0x6F, crcLo := 0x44 })
    (fun t => (t.crcHi, t.crcLo)) = some (0x44, 0x00) := by decide

/-- A replacement of R81 that keeps what R86 fixes: 3 bits where R81 shifts left by 5. -/
def otherTransform : List CrcOp :=
  [⟨.x, .x, .right, 4⟩, ⟨.y, .x, .right, 3⟩, ⟨.y, .x, .left, 4⟩, ⟨.x, .x, .left, 3⟩]

/-- Example of R81 up to its last line: x = 0x48, the new high half 0x89, the new low half 0x48 XOR (0x48 << 3). -/
theorem test_crcUpdate_other_transform :
    after (exec (.crcUpdate 0x4C) { idleState with params := ⟨otherTransform, .default⟩ })
      (fun t => (t.crcHi, t.crcLo)) = some (0x89, 0x08) := by decide

/-- Other ERR codes (R6): the host reads the code in force. -/
theorem test_hostRead_other_codes :
    hostRead { idleState with err := .incompleteData, params := ⟨CrcOp.default, ⟨4, 5, 6, 7⟩⟩ } 1 = some (.err 5) := by decide

/-- V-CRC-8, the check value of "123456789". -/
theorem test_crc16_check : crc16 CrcOp.default [0x31, 0x32, 0x33, 0x34, 0x35, 0x36, 0x37, 0x38, 0x39] 0 = 0x31C3 := by decide

/-- Example of R82. -/
theorem test_crcResult : after (exec .crcResult { idleState with crcHi := 0x31, crcLo := 0xC3 }) (fun t => t.ret) =
    some 0x31C3 := by decide

theorem test_crcCheck : after (exec .crcCheck { idleState with crcLo := 1 }) (fun t => t.ret) = some 0 := by decide

/-- Example of R128: X of F1 under layout A. -/
theorem test_decFx : after (exec .decFx (loaded .decFx frameF1)) (fun t => (t.x, t.phase)) =
    some (⟨⟨true, 30125⟩, ⟨true, 215⟩, ⟨false, 0⟩, ⟨true, 270⟩, ⟨true, 50⟩, ⟨true, 8⟩⟩, .fcMap) := by decide +kernel

/-- X of F3: the extremes, and 360 as true north. -/
theorem test_decFx_extremes : after (exec .decFx (loaded .decFx frameF3)) (fun t => t.x) =
    some ⟨⟨true, 65535⟩, ⟨true, 65526⟩, ⟨true, 0⟩, ⟨true, 0⟩, ⟨true, 0⟩, ⟨true, 2⟩⟩ := by decide +kernel

/-- V-FX-1. -/
theorem test_fxPressure_sentinel : after (exec .fxPressure (oneField 8 0x00 0x00)) (fun t => t.x.pressure) =
    some ⟨false, 0⟩ := by decide +kernel

/-- V-FX-4: low byte first. -/
theorem test_fxPressure_order : after (exec .fxPressure (oneField 8 0x00 0x01)) (fun t => t.x.pressure) =
    some ⟨true, 256⟩ := by decide +kernel

/-- V-FX-7. -/
theorem test_fxTemp_sentinel : after (exec .fxTemp (oneField 13 0xFF 0x7F)) (fun t => t.x.temperature) =
    some ⟨false, 0⟩ := by decide +kernel

/-- V-FX-10: raw 0xFFF6 stands for -1.0 (TEMP_SIGNED = 1). -/
theorem test_fxTemp_signed : after (exec .fxTemp (oneField 13 0xF6 0xFF))
    (fun t => (t.x.temperature, fieldValue t.config .temperature t.x.temperature)) =
      some (⟨true, 65526⟩, some ⟨-10, -1⟩) := by decide +kernel

/-- V-FX-19. -/
theorem test_fxWind_sentinel : after (exec .fxWind (oneField 15 0xFF 0x00)) (fun t => t.x.windSpeed) =
    some ⟨false, 0⟩ := by decide +kernel

/-- V-FX-20. -/
theorem test_fxWind_calm : after (exec .fxWind (oneField 15 0x00 0x00)) (fun t => t.x.windSpeed) =
    some ⟨true, 0⟩ := by decide +kernel

/-- V-FX-13. -/
theorem test_fxBearing_sentinel : after (exec .fxBearing (oneField 17 0x00 0x00)) (fun t => t.x.windBearing) =
    some ⟨false, 0⟩ := by decide +kernel

/-- V-FX-14. -/
theorem test_fxBearing_north : after (exec .fxBearing (oneField 17 0x68 0x01)) (fun t => t.x.windBearing) =
    some ⟨true, 0⟩ := by decide +kernel

/-- V-FX-22. -/
theorem test_fxHum : after (exec .fxHum (oneField 33 0xC8 0x00)) (fun t => t.x.humidity) = some ⟨true, 200⟩ := by
  decide +kernel

/-- V-FX-23. -/
theorem test_fxIcon : after (exec .fxIcon (oneField 90 0xFF 0x00)) (fun t => t.x.icon) = some ⟨true, 255⟩ := by
  decide +kernel

/-- V-FX-25. -/
theorem test_ldU8 : after (exec (.ldU8 89) (loaded .decFx frameF1)) (fun t => t.ret) = some 8 := by decide +kernel

/-- V-FX-26: the last legal offset. -/
theorem test_ldU16le : after (exec (.ldU16le 97) (loaded .decFx frameF1)) (fun t => t.ret) = some 0x446F := by
  decide +kernel

/-- V-FC-1. -/
theorem test_fcMap : after (exec .fcMap { idleState with x.icon := ⟨true, 8⟩ }) (fun t => (t.label, t.phase)) =
    some (⟨true, .sunny⟩, .done) := by decide

/-- V-FC-2. -/
theorem test_fcMap_unknown : after (exec .fcMap { idleState with x.icon := ⟨true, 42⟩ })
    (fun t => (t.label.valid, t.phase, t.err.code t.params.errCodes)) = some (false, .failed, 4) := by decide

theorem test_haltOk : after (exec .haltOk { idleState with phase := .done }) (fun t => t.phase) = some .done := by decide

theorem test_haltErr : after (exec .haltErr { idleState with phase := .failed }) (fun t => t.phase) = some .failed := by
  decide

theorem test_wake : after (exec .wake { openState .hsProbe with txlog := [] }) (fun t => (t.txlog, t.phase)) =
    some ([0x0A#8], .hsProbe) := by decide

theorem test_wake_closed : stop (exec .wake idleState) = some .linkClosed := by decide

theorem test_loop1 : after (exec .loop1 { openState .acqReq with txlog := [] }) (fun t => t.txlog) =
    some [0x4C#8, 0x4F#8, 0x4F#8, 0x50#8, 0x20#8, 0x31#8, 0x0A#8] := by decide

/-- The station's answers come in the order they were given. -/
theorem test_ack : after (exec .ack { idleState with rx := [[]] }) (fun t => t.rx) = some [[], [0x0A#8, 0x0D#8]] := by
  decide

theorem test_frame : after (exec (.frame ((frameF1.drop 4).take 92) 0x6F 0x44) idleState) (fun t => t.rx) =
    some [frameF1] := by decide +kernel

theorem test_fieldPressure : after (exec (.fieldPressure 0) idleState) (fun t => t.x.pressure) = some ⟨false, 0⟩ := by
  decide

theorem test_fieldTemperature : after (exec (.fieldTemperature 32766) idleState) (fun t => t.x.temperature) =
    some ⟨true, 32766⟩ := by decide

theorem test_fieldWindSpeed : after (exec (.fieldWindSpeed 255) idleState) (fun t => t.x.windSpeed) =
    some ⟨false, 0⟩ := by decide

theorem test_fieldWindBearing : after (exec (.fieldWindBearing 360) idleState) (fun t => t.x.windBearing) =
    some ⟨true, 0⟩ := by decide

/-- V-FX-18: no bearing field in the layout. -/
theorem test_fieldWindBearing_absent :
    after (exec (.fieldWindBearing 270) { idleState with config := .layoutB 32 88 }) (fun t => t.x.windBearing) =
      some ⟨false, 0⟩ := by decide

theorem test_fieldHumidity : after (exec (.fieldHumidity 101) idleState) (fun t => t.x.humidity) = some ⟨true, 101⟩ := by
  decide

theorem test_fieldIcon : after (exec (.fieldIcon 0) idleState) (fun t => t.x.icon) = some ⟨true, 0⟩ := by decide

/-- The hand-off of P1 (R142): values 30.125, 21.5, absent, 270, 50 and the label. -/
theorem test_handoff :
    handoff { idleState with
      phase := .done, label := ⟨true, .sunny⟩,
      x := ⟨⟨true, 30125⟩, ⟨true, 215⟩, ⟨false, 0⟩, ⟨true, 270⟩, ⟨true, 50⟩, ⟨true, 8⟩⟩ } =
      some ⟨some .sunny, some ⟨30125, -3⟩, some ⟨215, -1⟩, none, some (some ⟨270, 0⟩), some ⟨50, 0⟩⟩ := by decide

/-- RUN on P4's answers: one flipped bit ends in MalformedPacket with nothing extracted. -/
theorem test_runBlock_flipped :
    runBlock CrcOp.default .layoutA [(8, .sunny)] [[0x0A, 0x0D], patch frameF1 [(8, 0xAC)]] =
      ⟨.failed, .malformedPacket, .allAbsent, none, wakeBytes ++ loop1Bytes, 2⟩ := by decide +kernel

/-! ### Witnesses: for each statement with hypotheses, a state and operands that meet them -/

theorem after_some {α : Type} {r : Result} {f : State → α} {v : α} (h : after r f = some v) :
    ∃ t, r = .next t ∧ f t = v := by
  cases r with
  | next t => exact ⟨t, rfl, Option.some.inj h⟩
  | fault e => cases h
  | refused e => cases h

theorem read_ok {α : Type} {r : Except Fault α} {v : α} (h : r.toOption = some v) : r = .ok v := by
  cases r with
  | ok w => exact congrArg Except.ok (Option.some.inj h)
  | error e => cases h

/-- A state in IDLE that differs from `idleState` in what an earlier run can leave. -/
def usedState : State :=
  { idleState.setFrame frameF1 with
    attempt := 3, crcHi := 0x6F, crcLo := 0x44, ackbuf0 := 0x0A, acklen := 1, framelen := 60, err := .incompleteData,
    x := ⟨⟨true, 1⟩, ⟨true, 2⟩, ⟨true, 3⟩, ⟨true, 4⟩, ⟨true, 5⟩, ⟨true, 6⟩⟩, txlog := wakeBytes }

/-- A state of the invariant in DEC_FX, with F1. -/
def fxState : State := loaded .decFx frameF1

/-- A state of the invariant in DONE, with F1. -/
def doneState : State :=
  { loaded .done frameF1 with
    label := ⟨true, .sunny⟩
    x := ⟨⟨true, 30125⟩, ⟨true, 215⟩, ⟨false, 0⟩, ⟨true, 270⟩, ⟨true, 50⟩, ⟨true, 8⟩⟩ }

/-- A state of the invariant in FAILED, after three unanswered attempts. -/
def failedState : State :=
  { idleState with phase := .failed, err := .stationNotReady, attempt := 3, txlog := [0x0A, 0x0A, 0x0A] }

theorem inv_openState : Inv { openState .hsRdack with host := [.start, .writeConfig .layoutA] } := by
  constructor
  case clean => constructor <;> decide
  all_goals try simp only [State.acked, State.requested, State.complete, State.validated, State.measured]
  all_goals decide +kernel

theorem inv_fxState : Inv fxState := by
  constructor
  case clean => constructor <;> decide +kernel
  all_goals try simp only [State.acked, State.requested, State.complete, State.validated, State.measured]
  all_goals decide +kernel

theorem inv_doneState : Inv doneState := by
  constructor
  case clean => constructor <;> decide +kernel
  all_goals try simp only [State.acked, State.requested, State.complete, State.validated, State.measured]
  all_goals decide +kernel

theorem inv_failedState : Inv failedState := by
  constructor
  case clean => constructor <;> decide
  all_goals try simp only [State.acked, State.requested, State.complete, State.validated, State.measured]
  all_goals decide +kernel

theorem witness_HostResetAbandonsTheRunInAnyPhase :
    ∃ s : State, s.issue = none ∧ s.host = [.reset] ∧ s.phase = .acqRead ∧ s.linkOpen = true :=
  ⟨{ openState .acqRead with host := [.reset] }, rfl, rfl, rfl, rfl⟩

/-- Each of the four clauses: a layout at the last legal offset, one beyond it, a write outside IDLE, a write to
STATUS. -/
theorem witness_HostWritesActOnlyOnConfigInIdle :
    idleState.issue = none ∧ idleState.phase = .idle ∧
    { ConfigReg.layoutA with iconOff := 98 }.wellFormed = true ∧
    { ConfigReg.layoutA with iconOff := 99 }.wellFormed = false ∧
    { openState .hsCmp with host := [.writeConfig .layoutA] }.host = [.writeConfig .layoutA] ∧
    (openState .hsCmp).phase ≠ .idle ∧ { idleState with host := [.writeStatus 0] }.host = [.writeStatus 0] := by decide

/-- The four clauses; the last word is of no row. -/
theorem witness_StepRunsTheDecodedInstruction :
    (Instr.ldU16le 97).wellFormed = true ∧
    { fxState with issue := some (.op, encode (.ldU16le 97) ++ []) }.issue =
      some ((Instr.ldU16le 97).format, encode (.ldU16le 97) ++ []) ∧
    { idleState with host := [.start] }.host = [.start] ∧ idleState.issue = none ∧
    decodeTableWord 8 0x10 = some .hsProbe ∧ decodeTableWord 16 0 = none := by decide +kernel

/-- Both quiet forms of the host, in every phase. -/
theorem witness_StepRunsTheOperationOfThePhase (p : Phase) :
    ({ idleState with phase := p }.issue = none ∧ { idleState with phase := p }.host = [] ∧
      { idleState with phase := p }.phase = p) ∧
    ∃ r : State, { idleState with phase := p, host := [.quiet, .start] }.host = .quiet :: [.start] ∧
      r = { idleState with phase := p, host := [.start] } ∧ r.phase = p :=
  ⟨⟨rfl, rfl, rfl⟩, _, rfl, rfl, rfl⟩

theorem witness_DecodeInvertsEncode :
    (Instr.frame (List.replicate 92 0xFF) 0xDA 0xE2).wellFormed = true ∧ (Instr.ldU8 98).wellFormed = true := by decide

theorem witness_DecodeAcceptsOnlyEncodings : decode .op [0xA9#8, 97#8, 0x33#8] = .ok (.ldU16le 97, [0x33#8]) := rfl

theorem witness_StartOpensARunFromIdleOnly : usedState.phase = .idle ∧ doneState.phase ≠ .idle := by decide

theorem witness_TerminalPhasesAreLeftOnlyByReset :
    doneState.issue = none ∧ doneState.phase.terminal = true ∧ doneState.host = [] ∧
    failedState.phase.terminal = true ∧
    (∃ t, step { failedState with host := [.reset] } = .next t ∧ t.phase = .idle) ∧
    ∃ t, step { failedState with host := [.start] } = .next t ∧ t.phase = .failed :=
  ⟨rfl, rfl, rfl, rfl, after_some (by decide), after_some (by decide)⟩

/-- Codes that are well-formed, at the ends of their range. -/
theorem witness_RaiseRecordsTheErrorAndFails : (ErrCodes.mk 7 1 6 2).wellFormed = true := by decide

theorem witness_CrcUpdateIsTheBitSerialDivision : idleState.params.crcStep = Params.default.crcStep := rfl

/-- A transform that is not R81's, in two states whose registers differ. -/
theorem witness_EveryTransformKeepsWhatTheSourceFixes :
    let s : State := { idleState with params := ⟨otherTransform, .default⟩ }
    let s' : State := { usedState with params := ⟨otherTransform, .default⟩ }
    crcWellFormed s.params.crcStep = true ∧ s.params = s'.params ∧
    (∃ t, exec (.crcUpdate 0) s = .next t ∧ (t.crcHi, t.crcLo) = (0, 0)) ∧
    ∃ t, exec (.crcUpdate 0x6F) s' = .next t ∧ (t.crcHi, t.crcLo) = (0x44, 0) :=
  ⟨by decide +kernel, rfl, after_some (by decide), after_some (by decide +kernel)⟩

/-- R81's transform and another. -/
theorem witness_ZeroResidueMeansTheTrailerIsTheChecksum :
    crcWellFormed CrcOp.default = true ∧ crcWellFormed otherTransform = true := by decide +kernel

/-- Both quiet forms of the host. The conditional rows of R71 on both sides: ATTEMPT 2 and 3, FRAMELEN 99 and 100, shape and checksum right and wrong,
FORECAST_EN 1 and 0, code 8 and another. -/
theorem witness_PhaseFollowsTheTransitionTable :
    (openState .hsCmp).issue = none ∧ (openState .hsCmp).host = [] ∧
    (∃ t, step { openState .hsCmp with attempt := 2, host := [.quiet] } = .next t ∧ t.phase = .hsProbe) ∧
    (∃ t, step { openState .hsCmp with attempt := 2 } = .next t ∧ t.phase = .hsProbe) ∧
    (∃ t, step { openState .hsCmp with attempt := 3 } = .next t ∧ t.phase = .failed) ∧
    (∃ t, step { idleState with phase := .acqLen, framelen := 99 } = .next t ∧ t.phase = .failed) ∧
    (∃ t, step { idleState with phase := .acqLen, framelen := 100 } = .next t ∧ t.phase = .decEnv) ∧
    (∃ t, step (loaded .decEnv frameF1) = .next t ∧ t.phase = .decCrc) ∧
    (∃ t, step (loaded .decCrc frameF1) = .next t ∧ t.phase = .decFx) ∧
    (∃ t, step (loaded .decCrc blank) = .next t ∧ t.phase = .failed) ∧
    (∃ t, step fxState = .next t ∧ t.phase = .fcMap) ∧
    (∃ t, step { fxState with config := { ConfigReg.layoutA with forecastEn := false } } = .next t ∧ t.phase = .done) ∧
    (∃ t, step { idleState with phase := .fcMap } = .next t ∧ t.phase = .failed) :=
  ⟨rfl, rfl, after_some (by decide), after_some (by decide), after_some (by decide), after_some (by decide),
    after_some (by decide), after_some (by decide +kernel), after_some (by decide +kernel),
    after_some (by decide +kernel), after_some (by decide +kernel), after_some (by decide +kernel),
    after_some (by decide)⟩

/-- The byte 01 followed by its checksum 10 21; the first and the last bit of its middle byte. -/
theorem witness_EverySingleBitErrorIsDetected :
    crcWellFormed CrcOp.default = true ∧ crc16 CrcOp.default ([0x01] ++ 0x10 :: [0x21]) 0 = 0 ∧ (0 : Nat) < 8 ∧
      (7 : Nat) < 8 := by decide +kernel

theorem witness_ChecksumChainsAndIsLinear : [0x12#8, 0x34#8, 0x56#8].length = [0xAB#8, 0xCD#8, 0xEF#8].length := rfl

theorem witness_ProbeCountsTheAttemptAndSendsWake :
    { openState .hsProbe with attempt := 2 }.linkOpen = true ∧
      { openState .hsProbe with attempt := 2 }.attempt.toNat ≤ 2 := by decide

/-- Answers of no byte, one, two and three bytes. -/
theorem witness_ReadAckStoresTheAnswer (a : List Byte) :
    { openState .hsRdack with rx := [a] }.linkOpen = true ∧ { openState .hsRdack with rx := [a] }.rx = a :: [] :=
  ⟨rfl, rfl⟩

/-- ACK; no match with ATTEMPT = 2; no match, the bytes of ACK with ACKLEN = 1, with ATTEMPT = 3. -/
theorem witness_CompareProceedsRetriesOrFails :
    (∃ s : State, s.acklen = 2 ∧ s.ackbuf0 = 0x0A ∧ s.ackbuf1 = 0x0D) ∧
    (∃ s : State, ¬ (s.acklen = 2 ∧ s.ackbuf0 = 0x0A ∧ s.ackbuf1 = 0x0D) ∧ s.attempt.toNat < 3) ∧
    ∃ s : State, ¬ (s.acklen = 2 ∧ s.ackbuf0 = 0x0A ∧ s.ackbuf1 = 0x0D) ∧ s.attempt.toNat = 3 :=
  ⟨⟨{ openState .hsCmp with acklen := 2, ackbuf0 := 0x0A, ackbuf1 := 0x0D }, by decide⟩,
    ⟨{ openState .hsCmp with attempt := 2 }, by decide⟩,
    ⟨{ openState .hsCmp with attempt := 3, acklen := 1, ackbuf0 := 0x0A, ackbuf1 := 0x0D }, by decide⟩⟩

/-- V-HS-3: ACK on the third answer. -/
theorem witness_HandshakeSucceedsAtTheFirstAck :
    let s : State := { openState .hsProbe with attempt := 0, txlog := [], rx := [[], [0x0D, 0x0A], [0x0A, 0x0D]] }
    s.issue = none ∧ s.host = [] ∧ s.phase = .hsProbe ∧ s.attempt = 0 ∧ s.linkOpen = true ∧ s.txlog = [] ∧ 2 < 3 ∧
      2 < s.rx.length ∧ (∀ k < 2, (s.rx.getD k []).take 2 ≠ [0x0A#8, 0x0D#8]) ∧
      (s.rx.getD 2 []).take 2 = [0x0A#8, 0x0D#8] := by decide

/-- V-HS-9: the two halves of an ACK in two answers. -/
theorem witness_HandshakeFailsAfterThreeAttempts :
    let s : State := { openState .hsProbe with attempt := 0, txlog := [], rx := [[0x0D], [0x0A], []] }
    s.issue = none ∧ s.host = [] ∧ s.phase = .hsProbe ∧ s.attempt = 0 ∧ s.linkOpen = true ∧ s.txlog = [] ∧
      3 ≤ s.rx.length ∧ (∀ k < 3, (s.rx.getD k []).take 2 ≠ [0x0A#8, 0x0D#8]) := by decide

theorem witness_RequestSendsLoopOnce : (openState .acqReq).linkOpen = true := by decide

theorem witness_AcquisitionReadFillsTheFrame :
    { openState .acqRead with rx := [frameF1] }.linkOpen = true ∧
      { openState .acqRead with rx := [frameF1] }.rx = frameF1 :: [] ∧ Memory.wf (openState .acqRead).frame = true := by
  decide +kernel

theorem witness_ShortFramesAreIncompleteData :
    { idleState with framelen := 99 }.framelen.toNat < 100 ∧ 100 ≤ { idleState with framelen := 100 }.framelen.toNat := by
  decide

/-- Answers of 99 and of 100 bytes. -/
theorem witness_AcquireTakesOneAnswerAndClosesTheLink :
    (openState .acqReq).issue = none ∧ (openState .acqReq).host = [] ∧ (openState .acqReq).phase = .acqReq ∧
    (openState .acqReq).linkOpen = true ∧
    { openState .acqReq with rx := [frameF1.take 99] }.rx = frameF1.take 99 :: [] ∧ (frameF1.take 99).length < 100 ∧
    { openState .acqReq with rx := [frameF1] }.rx = frameF1 :: [] ∧ 100 ≤ frameF1.length := by decide +kernel

/-- The link closed; an address at FRAMELEN = 60, the last address of FRAME, and the first beyond it. -/
theorem witness_PrimitivesStopOutsideTheirDomain :
    idleState.linkOpen = false ∧ usedState.framelen.toNat ≤ 60 ∧ 60 < 100 ∧ usedState.framelen.toNat ≤ 99 ∧
      (100 : Nat) ≤ 100 := by decide

/-- F1, and F1 with each of the first and the last of the six bytes changed. -/
theorem witness_EnvelopeMatchDecidesByItsSixBytes :
    readBytes (loaded .decEnv frameF1) 0 100 = .ok frameF1 ∧
    (frameF1[0]? = some 0x06 ∧ frameF1[1]? = some 0x4C ∧ frameF1[2]? = some 0x4F ∧ frameF1[3]? = some 0x4F ∧
      frameF1[96]? = some 0x0A ∧ frameF1[97]? = some 0x0D) ∧
    readBytes (loaded .decEnv (frameF1.set 97 0)) 0 100 = .ok (frameF1.set 97 0) ∧
    ¬ ((frameF1.set 97 0)[97]? = some 0x0D) ∧ ¬ ((frameF1.set 0 0x15)[0]? = some 0x06) :=
  ⟨read_ok (by decide +kernel), by decide +kernel, read_ok (by decide +kernel), by decide +kernel, by decide +kernel⟩

/-- F1, whose payload leaves 0, and V-ENV-8. -/
theorem witness_ChecksumTestDecidesByZeroResidue :
    readBytes (loaded .decCrc frameF1) 0 100 = .ok frameF1 ∧ crc16 CrcOp.default (frameF1.drop 1) 0 = 0 ∧
    readBytes (loaded .decCrc (frameF1.set 99 0x45)) 0 100 = .ok (frameF1.set 99 0x45) ∧
    crc16 CrcOp.default ((frameF1.set 99 0x45).drop 1) 0 = 0x1021 :=
  ⟨read_ok (by decide +kernel), by decide +kernel, read_ok (by decide +kernel), by decide +kernel⟩

/-- The last legal offsets, 98 and 97. -/
theorem witness_LoadsReturnPayloadBytes :
    readByte fxState ((98 : Offset).toNat + 1) = .ok 0x44 ∧ readByte fxState ((97 : Offset).toNat + 1) = .ok 0x6F ∧
      readByte fxState ((97 : Offset).toNat + 2) = .ok 0x44 :=
  ⟨read_ok (by decide +kernel), read_ok (by decide +kernel), read_ok (by decide +kernel)⟩

/-- V-FX-1 and V-FX-5: raw 0 and raw 65535. -/
theorem witness_PressureFieldIsExtracted :
    readByte (oneField 8 0x00 0x00) ((7 : Offset).toNat + 1) = .ok 0x00 ∧
    readByte (oneField 8 0x00 0x00) ((7 : Offset).toNat + 2) = .ok 0x00 ∧
    readByte (oneField 8 0xFF 0xFF) ((7 : Offset).toNat + 1) = .ok 0xFF ∧
      readByte (oneField 8 0xFF 0xFF) ((7 : Offset).toNat + 2) = .ok 0xFF :=
  ⟨read_ok (by decide +kernel), read_ok (by decide +kernel), read_ok (by decide +kernel),
    read_ok (by decide +kernel)⟩

/-- V-FX-7 and V-FX-8. -/
theorem witness_TemperatureFieldIsExtracted :
    readByte (oneField 13 0xFF 0x7F) ((12 : Offset).toNat + 1) = .ok 0xFF ∧
    readByte (oneField 13 0xFF 0x7F) ((12 : Offset).toNat + 2) = .ok 0x7F ∧
    readByte (oneField 13 0xFE 0x7F) ((12 : Offset).toNat + 1) = .ok 0xFE :=
  ⟨read_ok (by decide +kernel), read_ok (by decide +kernel), read_ok (by decide +kernel)⟩

/-- V-FX-19 and V-FX-21. -/
theorem witness_WindSpeedFieldIsExtracted :
    readByte (oneField 15 0xFF 0) ((14 : Offset).toNat + 1) = .ok 0xFF ∧
      readByte (oneField 15 0xFE 0) ((14 : Offset).toNat + 1) = .ok 0xFE :=
  ⟨read_ok (by decide +kernel), read_ok (by decide +kernel)⟩

/-- No bearing field; V-FX-13, V-FX-14 and V-FX-17. -/
theorem witness_BearingFieldIsExtracted :
    (ConfigReg.layoutB 32 88).bearingEn = false ∧ fxState.config.bearingEn = true ∧
    readByte (oneField 17 0x00 0x00) ((16 : Offset).toNat + 1) = .ok 0x00 ∧
    readByte (oneField 17 0x00 0x00) ((16 : Offset).toNat + 2) = .ok 0x00 ∧
    readByte (oneField 17 0x68 0x01) ((16 : Offset).toNat + 1) = .ok 0x68 ∧
    readByte (oneField 17 0x68 0x01) ((16 : Offset).toNat + 2) = .ok 0x01 ∧
    readByte (oneField 17 0x69 0x01) ((16 : Offset).toNat + 1) = .ok 0x69 ∧
      readByte (oneField 17 0x69 0x01) ((16 : Offset).toNat + 2) = .ok 0x01 :=
  ⟨rfl, rfl, read_ok (by decide +kernel), read_ok (by decide +kernel), read_ok (by decide +kernel),
    read_ok (by decide +kernel), read_ok (by decide +kernel), read_ok (by decide +kernel)⟩

/-- V-FX-22. -/
theorem witness_HumidityFieldIsExtracted :
    readByte (oneField 33 0xFF 0) ((32 : Offset).toNat + 1) = .ok 0xFF ∧
      readByte (oneField 33 0xC8 0) ((32 : Offset).toNat + 1) = .ok 0xC8 :=
  ⟨read_ok (by decide +kernel), read_ok (by decide +kernel)⟩

/-- V-FX-23. -/
theorem witness_IconFieldIsExtracted : readByte (oneField 90 0xFF 0) ((89 : Offset).toNat + 1) = .ok 0xFF :=
  read_ok (by decide +kernel)

theorem witness_ExtractionWritesAllSixFields :
    fxState.config.wellFormed = true ∧ readBytes fxState 0 100 = .ok frameF1 :=
  ⟨rfl, read_ok (by decide +kernel)⟩

/-- F1, and V-ENV-8, on which the checksum fails. -/
theorem witness_DecoderPhasesComputeDecode :
    (loaded .decEnv frameF1).issue = none ∧ (loaded .decEnv frameF1).host = [] ∧
    (loaded .decEnv frameF1).phase = .decEnv ∧ (loaded .decEnv frameF1).config.wellFormed = true ∧
    readBytes (loaded .decEnv frameF1) 0 100 = .ok frameF1 ∧
    readBytes (loaded .decEnv (frameF1.set 99 0x45)) 0 100 = .ok (frameF1.set 99 0x45) :=
  ⟨rfl, rfl, rfl, rfl, read_ok (by decide +kernel), read_ok (by decide +kernel)⟩

theorem witness_NothingIsExtractedFromAMalformedFrame :
    Inv fxState ∧ fxState.x = .allAbsent ∧ ∃ t, step fxState = .next t ∧ decide (t.x ≠ .allAbsent) = true :=
  ⟨inv_fxState, rfl, after_some (by decide +kernel)⟩

theorem witness_RegisterValuesAreExactDecimals :
    ConfigReg.layoutA.tempSigned = true ∧ { ConfigReg.layoutA with tempSigned := false }.tempSigned = false ∧
      Sys2Proof.Field.icon ≠ .pressure ∧ Sys2Proof.Field.icon ≠ .temperature := by decide

/-- A code of the table, and the codes 0 and 255. -/
theorem witness_ForecastLookupIsTotalOrFailing :
    (8#8).toNat = doneState.x.icon.raw.toNat % 256 ∧ tableLookup doneState.table 8 = some .sunny ∧
    (0#8).toNat = idleState.x.icon.raw.toNat % 256 ∧ tableLookup idleState.table 0 = none ∧
    (255#8).toNat = (XReg.mk true 255).raw.toNat % 256 ∧ tableLookup idleState.table 255 = none := by decide +kernel

theorem witness_HandoffHappensOnlyInDone : Inv doneState ∧ (handoff doneState).isSome = true :=
  ⟨inv_doneState, by decide +kernel⟩

theorem witness_WireRowsTravelOnTheirStreams : (openState .hsProbe).linkOpen = true := by decide

/-- Another instruction; START where it acts and where it is ignored. -/
theorem witness_OnlyTheAcquisitionReadWritesFrame :
    (∃ t, exec .acqClose fxState = .next t ∧ t.linkOpen = false) ∧
    (usedState.phase = .idle ∧ ∃ t, exec .start usedState = .next t ∧ t.framelen = 0) ∧
    (doneState.phase ≠ .idle ∧ ∃ t, exec .start doneState = .next t ∧ t.framelen = 100) :=
  ⟨after_some (by decide +kernel), ⟨rfl, after_some (by decide +kernel)⟩,
    ⟨by decide +kernel, after_some (by decide +kernel)⟩⟩

/-- A CONFIG write in IDLE, and a reset that takes another layout back to the default. -/
theorem witness_ConfigurationIsConstantDuringARun :
    (∃ t, exec .fcMap idleState = .next t ∧ t.config = .layoutA) ∧
    (∃ t, step { idleState with host := [.writeConfig (.layoutB 32 88)] } = .next t ∧
      decide (t.config ≠ idleState.config) = true) ∧
    ∃ t, step { idleState with config := .layoutB 32 88, host := [.reset] } = .next t ∧
      decide (t.config ≠ .layoutB 32 88) = true :=
  ⟨after_some (by decide), after_some (by decide), after_some (by decide)⟩

theorem witness_OnlyProbeRequestAndCommandRowsTransmit :
    (∃ t, exec .start usedState = .next t ∧ decide (t.txlog ≠ usedState.txlog) = true) ∧
    (∃ t, exec .hsProbe (openState .hsProbe) = .next t ∧ decide (t.txlog ≠ (openState .hsProbe).txlog) = true) ∧
    (∃ t, exec .acqReq (openState .acqReq) = .next t ∧ decide (t.txlog ≠ (openState .acqReq).txlog) = true) ∧
    ∃ t, exec .wake (openState .hsProbe) = .next t ∧ decide (t.txlog ≠ (openState .hsProbe).txlog) = true :=
  ⟨after_some (by decide +kernel), after_some (by decide), after_some (by decide), after_some (by decide)⟩

/-- A result register and a byte of FRAME that change. -/
theorem witness_InstructionsWriteOnlyTheirRegisters :
    (∃ t, exec .decFx fxState = .next t ∧ decide (t.x.icon ≠ fxState.x.icon) = true) ∧
    ∃ t, exec .acqRead { openState .acqRead with rx := [[0x06]] } = .next t ∧ (readByte t 0).toOption = some 0x06 :=
  ⟨after_some (by decide +kernel), after_some (by decide)⟩

/-- A step of the invariant that the host and the station both take part in. -/
theorem witness_EveryStepKeepsTheInvariant :
    Inv { openState .hsRdack with host := [.start, .writeConfig .layoutA] } ∧
      (∃ t, step { openState .hsRdack with host := [.start, .writeConfig .layoutA] } = .next t ∧ t.phase = .hsRdack) ∧
      Inv fxState ∧ ∃ t, step fxState = .next t ∧ t.phase = .fcMap :=
  ⟨inv_openState, after_some (by decide), inv_fxState, after_some (by decide +kernel)⟩

theorem witness_NoReachableStateIsStuck :
    Inv { openState .hsRdack with host := [.start, .writeConfig .layoutA] } ∧
      ∀ c rest, { openState .hsRdack with host := [.start, .writeConfig .layoutA] }.host = c :: rest →
        c.accepted = true := by
  refine ⟨inv_openState, fun c rest h => ?_⟩
  cases h
  rfl

theorem witness_EveryRunEndsWithinSeventeenSteps : Inv fxState ∧ fxState.host = [] ∧ fxState.phase ≠ .idle :=
  ⟨inv_fxState, rfl, by decide +kernel⟩

/-- A run that failed in the handshake, and one that succeeded. -/
theorem witness_EndedRunsHaveClosedTheLink :
    (Inv failedState ∧ failedState.phase.terminal = true ∧ failedState.err = .stationNotReady) ∧
      Inv doneState ∧ doneState.phase.terminal = true ∧ doneState.err ≠ .stationNotReady :=
  ⟨⟨inv_failedState, rfl, rfl⟩, inv_doneState, rfl, by decide +kernel⟩

/-- The answers of P2, after whatever an earlier run left. -/
theorem witness_StepMachineAgreesWithRun :
    let s : State := { usedState with
      host := [.reset, .writeConfig .layoutA, .start]
      rx := [[0x0A], [0x0D, 0x0A], [0x0A, 0x0D], frameF1.take 60] }
    s.issue = none ∧ s.host = [.reset, .writeConfig .layoutA, .start] ∧ ConfigReg.layoutA.wellFormed = true ∧
      4 ≤ s.rx.length := ⟨rfl, rfl, rfl, by decide⟩

/-- Two states in IDLE that differ in what an earlier run left; both take the four steps to ACQ_REQ. -/
theorem witness_RunsDoNotDependOnWhatEarlierRunsLeft :
    let s : State := { idleState with host := [.start], rx := [[0x0A, 0x0D], frameF1] }
    let s' : State := { usedState with host := [.start], rx := [[0x0A, 0x0D], frameF1] }
    s.issue = none ∧ s'.issue = none ∧ s.phase = .idle ∧ s'.phase = .idle ∧ s.host = [.start] ∧ s'.host = [.start] ∧
      s.config = s'.config ∧ s.table = s'.table ∧ s.params = s'.params ∧ s.rx = s'.rx ∧ s.drawn = s'.drawn ∧
      s.crcHi ≠ s'.crcHi ∧
      (∃ t, core.run (3 + 1) s = .next t ∧ State.phase t = .acqReq) ∧
      ∃ t, core.run (3 + 1) s' = .next t ∧ State.phase t = .acqReq :=
  ⟨rfl, rfl, rfl, rfl, rfl, rfl, rfl, rfl, rfl, rfl, rfl, by decide +kernel, after_some (by decide +kernel),
    after_some (by decide +kernel)⟩

end Sys2Proof.Tests
end

section
/-! PROOFS. The Checksum Engine (41_checksum.md): the meaning of CRC.INIT and the halves of a 16-bit value as words. -/

namespace Sys2Proof.Machine

theorem exec_crcInit (init : Half) (s : State) : exec (.crcInit init) s = .next (s.setCrc init) := rfl

theorem highHalf_eq_ofNat (v : Half) : highHalf v = BitVec.ofNat 8 (v.toNat / 256) := by
  rw [← highHalf_toNat, BitVec.ofNat_toNat, BitVec.setWidth_eq]

theorem lowHalf_eq_ofNat (v : Half) : lowHalf v = BitVec.ofNat 8 (v.toNat % 256) := by
  rw [← lowHalf_toNat, BitVec.ofNat_toNat, BitVec.setWidth_eq]

/-- Settles O15: CRC.INIT is one write of the checksum register, whose halves are the quotient and the remainder of `init`
by 256 (R80). -/
theorem crcInitLoadsTheRegister : Obligations.CrcInitLoadsTheRegister := by
  intro s init
  rw [exec_crcInit, State.setCrc, highHalf_eq_ofNat, lowHalf_eq_ofNat]

end Sys2Proof.Machine
end

section
/-! PROOFS. The Packet Acquisition (43_acquisition.md): the meaning of ACQ.CLOSE. -/

namespace Sys2Proof.Machine

theorem exec_acqClose (s : State) : exec .acqClose s = .next ((serClose s).goto .acqLen) := rfl

/-- Settles O29: ACQ.CLOSE is the closing of the link followed by one write of PHASE, with no test of the state (R102). -/
theorem acquisitionClosesTheLink : Obligations.AcquisitionClosesTheLink := by
  intro s
  rw [exec_acqClose, serClose, State.goto]

end Sys2Proof.Machine
end

section
/-! PROOFS. The field extraction (45_field_extract.md): what the loads and the assembly of R58 give for a field whose
raw value is known, and from it the fields without a sign (R122, R124 to R127). -/

namespace Sys2Proof.Machine

/-! ### The raw value of a field -/

theorem halves_eq_ofNat (hi lo : Byte) : halves hi lo = BitVec.ofNat 16 (lo.toNat + 256 * hi.toNat) := by
  rw [← halves_toNat, BitVec.ofNat_toNat, BitVec.setWidth_eq]

theorem readHalf_of_bytes {s : State} {a : Nat} {lo hi : Byte} (hlo : readByte s a = .ok lo)
    (hhi : readByte s (a + 1) = .ok hi) : readHalf s a = .ok (halves hi lo) := by
  simp only [readHalf, hlo, hhi]

theorem fieldRaw_of_bytes {s : State} {f : Field} {lo hi : Byte} (hw : (descriptor s.config f).width = 2)
    (hlo : readByte s ((fieldOffset s.config f).toNat + 1) = .ok lo)
    (hhi : readByte s ((fieldOffset s.config f).toNat + 2) = .ok hi) :
    fieldRaw s f = .ok (BitVec.ofNat 16 (lo.toNat + 256 * hi.toNat)) := by
  rw [fieldRaw, if_pos hw, ← halves_eq_ofNat]
  exact readHalf_of_bytes hlo hhi

theorem fieldRaw_of_byte {s : State} {f : Field} {v : Byte} (hw : (descriptor s.config f).width = 1)
    (hv : readByte s ((fieldOffset s.config f).toNat + 1) = .ok v) :
    fieldRaw s f = .ok (BitVec.ofNat 16 v.toNat) := by
  rw [fieldRaw, if_neg (by rw [hw]; decide), loadU8, Config.payloadBase, hv, BitVec.ofNat_toNat]

theorem ofNat_half_ne {n k : Nat} (hn : n < 65536) (hk : k < 65536) (h : n ≠ k) :
    BitVec.ofNat 16 n ≠ BitVec.ofNat 16 k := by
  intro e
  have := congrArg BitVec.toNat e
  rw [BitVec.toNat_ofNat, BitVec.toNat_ofNat, Nat.mod_eq_of_lt hn, Nat.mod_eq_of_lt hk] at this
  exact h this

/-! ### From the raw value to the result register and its value -/

theorem extractField_of_sentinel {s : State} {f : Field} {raw : Half} (hp : fieldPresent s.config f = true)
    (hr : fieldRaw s f = .ok raw) (hs : (descriptor s.config f).sentinel = some raw) :
    extractField f s = .next (s.setX f .absent) := by
  rw [extractField_of_raw hp hr, assemble, if_pos hs]

/-- Neither a sentinel nor a value to normalise: the register holds the raw value. -/
theorem extractField_of_plain {s : State} {f : Field} {raw : Half} (hp : fieldPresent s.config f = true)
    (hr : fieldRaw s f = .ok raw) (hs : (descriptor s.config f).sentinel ≠ some raw)
    (hn : ∀ v, (descriptor s.config f).normalise ≠ some (raw, v)) :
    extractField f s = .next (s.setX f ⟨true, raw⟩) := by
  have ha : assemble (descriptor s.config f) raw = ⟨true, raw⟩ := by
    obtain ⟨h, -⟩ | ⟨-, hvalid, hraw | ⟨v, h, -⟩⟩ := assemble_cases (descriptor s.config f) raw
    · exact absurd h hs
    · calc assemble (descriptor s.config f) raw
          = ⟨(assemble (descriptor s.config f) raw).valid, (assemble (descriptor s.config f) raw).raw⟩ := rfl
        _ = ⟨true, raw⟩ := by rw [hvalid, hraw]
    · exact absurd h (hn v)
  rw [extractField_of_raw hp hr, ha]

theorem fieldValue_absent (c : ConfigReg) (f : Field) : fieldValue c f .absent = none := rfl

theorem fieldValue_of_unsigned {c : ConfigReg} {f : Field} {n : Nat} (hu : (descriptor c f).signed = false)
    (hn : n < 65536) :
    fieldValue c f ⟨true, BitVec.ofNat 16 n⟩ = some ⟨n, (descriptor c f).exponent⟩ := by
  simp [fieldValue, hu, Nat.mod_eq_of_lt hn]

/-- A field with a sentinel `k`, no normalisation and no sign, by its raw value `n` (R58, R129). -/
theorem extractField_sentinel_or_value {s : State} {f : Field} {n k w : Nat} {e : Int}
    (hp : fieldPresent s.config f = true)
    (hd : descriptor s.config f = ⟨w, some (BitVec.ofNat 16 k), none, false, e⟩)
    (hr : fieldRaw s f = .ok (BitVec.ofNat 16 n)) (hn : n < 65536) (hk : k < 65536) :
    (n = k → extractField f s = .next (s.setX f .absent) ∧ fieldValue s.config f .absent = none) ∧
    (∀ r : XReg, n ≠ k → r = ⟨true, BitVec.ofNat 16 n⟩ →
      extractField f s = .next (s.setX f r) ∧ fieldValue s.config f r = some ⟨n, e⟩) := by
  constructor
  · rintro rfl
    exact ⟨extractField_of_sentinel hp hr (by rw [hd]), fieldValue_absent _ _⟩
  · rintro r hne rfl
    have hs : (descriptor s.config f).sentinel ≠ some (BitVec.ofNat 16 n) := by
      rw [hd]
      exact fun h => ofNat_half_ne hn hk hne (Option.some.inj h).symm
    refine ⟨extractField_of_plain hp hr hs (by rw [hd]; nofun), ?_⟩
    rw [fieldValue_of_unsigned (by rw [hd]) hn, hd]

/-! ### The field operations -/

theorem exec_fxPressure (s : State) : exec .fxPressure s = extractField .pressure s := rfl

theorem exec_fxWind (s : State) : exec .fxWind s = extractField .windSpeed s := rfl

theorem exec_fxBearing (s : State) : exec .fxBearing s = extractField .windBearing s := rfl

theorem exec_fxHum (s : State) : exec .fxHum s = extractField .humidity s := rfl

theorem exec_fxIcon (s : State) : exec .fxIcon s = extractField .icon s := rfl

/-- Settles O36: two bytes with the sentinel 0 and the exponent -3 (R122). -/
theorem pressureFieldIsExtracted : Obligations.PressureFieldIsExtracted := by
  intro s lo hi hlo hhi
  rw [exec_fxPressure]
  exact extractField_sentinel_or_value rfl rfl (fieldRaw_of_bytes rfl hlo hhi) (by omega) (by decide)

/-- Settles O38: one byte with the sentinel 255 and no scaling (R124). -/
theorem windSpeedFieldIsExtracted : Obligations.WindSpeedFieldIsExtracted := by
  intro s v hv
  rw [exec_fxWind]
  exact extractField_sentinel_or_value rfl rfl (fieldRaw_of_byte rfl hv) (by omega) (by decide)

/-- Settles O40: one byte with the sentinel 255 and no range check (R126). -/
theorem humidityFieldIsExtracted : Obligations.HumidityFieldIsExtracted := by
  intro s v hv
  rw [exec_fxHum]
  exact extractField_sentinel_or_value rfl rfl (fieldRaw_of_byte rfl hv) (by omega) (by decide)

/-- Settles O41: one byte with neither sentinel nor normalisation, so every raw value is plain (R127). -/
theorem iconFieldIsExtracted : Obligations.IconFieldIsExtracted := by
  intro s v hv
  rw [exec_fxIcon]
  exact ⟨extractField_of_plain rfl (fieldRaw_of_byte rfl hv) nofun nofun, fieldValue_of_unsigned rfl (by omega)⟩

/-! ### The bearing -/

theorem extractField_bearing_missing {s : State} (h : s.config.bearingEn = false) :
    extractField .windBearing s = .next (s.setX .windBearing .absent) := by
  rw [extractField, fieldResult_absent h, orFault_ok]

theorem assemble_bearing_north (c : ConfigReg) :
    assemble (descriptor c .windBearing) (BitVec.ofNat 16 360) = ⟨true, 0⟩ := rfl

/-- A layout with the bearing, by its raw value `n`: the sentinel 0, true north's 360 that becomes 0, or plain. -/
theorem extractField_bearing_of_raw {s : State} {n : Nat} (hp : fieldPresent s.config .windBearing = true)
    (hr : fieldRaw s .windBearing = .ok (BitVec.ofNat 16 n)) (hn : n < 65536) :
    (n = 0 → extractField .windBearing s = .next (s.setX .windBearing .absent) ∧
      fieldValue s.config .windBearing .absent = none) ∧
    (n = 360 → extractField .windBearing s = .next (s.setX .windBearing ⟨true, 0⟩) ∧
      fieldValue s.config .windBearing ⟨true, 0⟩ = some ⟨0, 0⟩) ∧
    (∀ r : XReg, n ≠ 0 → n ≠ 360 → r = ⟨true, BitVec.ofNat 16 n⟩ →
      extractField .windBearing s = .next (s.setX .windBearing r) ∧
      fieldValue s.config .windBearing r = some ⟨n, 0⟩) := by
  refine ⟨?absent, ?north, ?plain⟩
  case absent =>
    rintro rfl
    exact ⟨extractField_of_sentinel hp hr rfl, fieldValue_absent _ _⟩
  case north =>
    rintro rfl
    refine ⟨?_, fieldValue_of_unsigned (n := 0) rfl (by decide)⟩
    rw [extractField_of_raw hp hr, assemble_bearing_north]
  case plain =>
    rintro r h0 h360 rfl
    have hs : BitVec.ofNat 16 n ≠ 0 := ofNat_half_ne hn (by decide) h0
    have hnorth : BitVec.ofNat 16 n ≠ 360 := ofNat_half_ne hn (by decide) h360
    refine ⟨extractField_of_plain hp hr ?_ ?_, fieldValue_of_unsigned rfl hn⟩
    · exact fun h => hs (Option.some.inj h).symm
    · exact fun v h => hnorth (congrArg Prod.fst (Option.some.inj h)).symm

/-- Settles O39: without the field no byte is read, whatever FRAME holds; with it the raw value of its two bytes decides
(R125). -/
theorem bearingFieldIsExtracted : Obligations.BearingFieldIsExtracted := by
  intro s
  rw [exec_fxBearing]
  exact ⟨extractField_bearing_missing, fun lo hi hp hlo hhi =>
    extractField_bearing_of_raw hp (fieldRaw_of_bytes rfl hlo hhi) (by omega)⟩

end Sys2Proof.Machine
end

section
/-! PROOFS. The decoder (30_encoding.md): it reads every well-formed encoding back, and accepts nothing else. -/

namespace Sys2Proof.Machine

/-! ### Format OP -/

theorem offset_setWidth_toNat (off : Offset) : (off.setWidth 8).toNat = off.toNat := by
  simp only [BitVec.toNat_setWidth]; omega

theorem offset_setWidth_setWidth (off : Offset) : (off.setWidth 8).setWidth 7 = off :=
  BitVec.eq_of_toNat_eq (by simp only [BitVec.toNat_setWidth]; omega)

theorem byte_setWidth_setWidth {o : Byte} (h : o.toNat < 128) : (o.setWidth 7).setWidth 8 = o :=
  BitVec.eq_of_toNat_eq (by simp only [BitVec.toNat_setWidth]; omega)

theorem byte_setWidth_toNat {o : Byte} (h : o.toNat < 128) : (o.setWidth 7).toNat = o.toNat := by
  simp only [BitVec.toNat_setWidth]; omega

theorem decodeOp_crcInit (v : Half) (rest : List Byte) :
    decodeOp (encode (.crcInit v) ++ rest) = .ok (.crcInit v, rest) := by
  calc decodeOp (encode (.crcInit v) ++ rest)
      = .ok (.crcInit (halves (highHalf v) (lowHalf v)), rest) := rfl
    _ = .ok (.crcInit v, rest) := by rw [halves_high_low]

theorem decodeOp_ldU8 {off : Offset} (h : off.toNat ≤ 98) (rest : List Byte) :
    decodeOp (encode (.ldU8 off) ++ rest) = .ok (.ldU8 off, rest) := by
  calc decodeOp (encode (.ldU8 off) ++ rest)
      = if (off.setWidth 8).toNat ≤ 98 then .ok (.ldU8 ((off.setWidth 8).setWidth 7), rest)
        else .error (.offsetRange (off.setWidth 8)) := rfl
    _ = .ok (.ldU8 off, rest) := by rw [offset_setWidth_toNat, if_pos h, offset_setWidth_setWidth]

theorem decodeOp_ldU16le {off : Offset} (h : off.toNat ≤ 97) (rest : List Byte) :
    decodeOp (encode (.ldU16le off) ++ rest) = .ok (.ldU16le off, rest) := by
  calc decodeOp (encode (.ldU16le off) ++ rest)
      = if (off.setWidth 8).toNat ≤ 97 then .ok (.ldU16le ((off.setWidth 8).setWidth 7), rest)
        else .error (.offsetRange (off.setWidth 8)) := rfl
    _ = .ok (.ldU16le off, rest) := by rw [offset_setWidth_toNat, if_pos h, offset_setWidth_setWidth]

/-! ### The wire formats and the fields -/

theorem decodeFrame_encode {body : List Byte} (h : body.length = 92) (hi lo : Byte) (rest : List Byte) :
    decodeFrame (encode (.frame body hi lo) ++ rest) = .ok (.frame body hi lo, rest) := by
  have htake : (body ++ 0x0A#8 :: 0x0D#8 :: hi :: lo :: rest).take 92 = body := by
    rw [← h, List.take_left]
  have hdrop {n : Nat} (m : Nat) (hn : n = 92 + m) : (body ++ 0x0A#8 :: 0x0D#8 :: hi :: lo :: rest).drop n =
      (0x0A#8 :: 0x0D#8 :: hi :: lo :: rest).drop m := by
    rw [hn, ← h, ← List.drop_drop, List.drop_left]
  simp [decodeFrame, encode, frameHead, frameTrailer, htake, hdrop 0 rfl, hdrop 2 rfl, hdrop 4 rfl]

/-- Two bytes, low byte first, are the value they are the halves of (R30). -/
theorem decodeField_encode (raw : Half) (rest : List Byte) :
    decodeField .pressure (encode (.fieldPressure raw) ++ rest) = .ok (.fieldPressure raw, rest) ∧
    decodeField .temperature (encode (.fieldTemperature raw) ++ rest) = .ok (.fieldTemperature raw, rest) ∧
    decodeField .windBearing (encode (.fieldWindBearing raw) ++ rest) = .ok (.fieldWindBearing raw, rest) := by
  simp only [encode, decodeField, List.cons_append, List.nil_append, halves_high_low, and_self]

/-- Settles O7: one case per row; an operand comes back from its bytes by the lemma of its encoding. -/
theorem decodeInvertsEncode : Obligations.DecodeInvertsEncode := by
  intro i rest h
  cases i
  case crcInit v => exact decodeOp_crcInit v rest
  case ldU8 off => exact decodeOp_ldU8 (Nat.le_of_succ_le_succ (of_decide_eq_true h)) rest
  case ldU16le off =>
    exact decodeOp_ldU16le (Nat.le_of_succ_le_succ (Nat.le_of_succ_le_succ (of_decide_eq_true h))) rest
  case frame body hi lo => exact decodeFrame_encode (of_decide_eq_true h) hi lo rest
  case fieldPressure raw => exact (decodeField_encode raw rest).1
  case fieldTemperature raw => exact (decodeField_encode raw rest).2.1
  case fieldWindBearing raw => exact (decodeField_encode raw rest).2.2
  all_goals rfl

/-! ### What is accepted -/

/-- The bytes before `rest` are the encoding of `i`, a well-formed instruction of format `f`. -/
def EncodedAs (f : Format) (bytes : List Byte) (i : Instr) (rest : List Byte) : Prop :=
  bytes = encode i ++ rest ∧ i.wellFormed = true ∧ i.format = f

theorem encodedAs_ldU8 {o : Byte} (h : o.toNat ≤ 98) (rest : List Byte) :
    EncodedAs .op (0xA8#8 :: o :: rest) (.ldU8 (o.setWidth 7)) rest := by
  refine ⟨by rw [encode, byte_setWidth_setWidth (by omega)]; rfl, ?_, rfl⟩
  exact decide_eq_true (by rw [byte_setWidth_toNat (by omega), Config.payloadLen]; omega)

theorem encodedAs_ldU16le {o : Byte} (h : o.toNat ≤ 97) (rest : List Byte) :
    EncodedAs .op (0xA9#8 :: o :: rest) (.ldU16le (o.setWidth 7)) rest := by
  refine ⟨by rw [encode, byte_setWidth_setWidth (by omega)]; rfl, ?_, rfl⟩
  exact decide_eq_true (by rw [byte_setWidth_toNat (by omega), Config.payloadLen]; omega)

theorem decodeOp_sound {bytes rest : List Byte} {i : Instr} (h : decodeOp bytes = .ok (i, rest)) :
    EncodedAs .op bytes i rest := by
  cases bytes with
  | nil => cases h
  | cons b bs =>
    have hb : b = BitVec.ofNat 8 b.toNat := by rw [BitVec.ofNat_toNat, BitVec.setWidth_eq]
    simp only [decodeOp] at h
    -- The rows with operands are the 11th, 12th, 22nd and 23rd arms; the last arm is no operation.
    split at h
    case h_11 hop =>
      rw [hop] at hb
      cases bs with
      | nil => cases h
      | cons hi bs =>
        cases bs with
        | nil => cases h
        | cons lo bs =>
          cases h
          exact ⟨by simp [encode, hb], rfl, rfl⟩
    case h_12 hop =>
      rw [hop] at hb
      cases bs with
      | nil => cases h
      | cons v bs => cases h; exact ⟨by rw [hb]; rfl, rfl, rfl⟩
    case h_22 hop =>
      rw [hop] at hb
      cases bs with
      | nil => cases h
      | cons o bs =>
        simp only at h
        split at h
        case isTrue ho =>
          cases h
          exact hb ▸ encodedAs_ldU8 ho _
        case isFalse => cases h
    case h_23 hop =>
      rw [hop] at hb
      cases bs with
      | nil => cases h
      | cons o bs =>
        simp only at h
        split at h
        case isTrue ho =>
          cases h
          exact hb ▸ encodedAs_ldU16le ho _
        case isFalse => cases h
    case h_27 => cases h
    all_goals
      rename_i hop
      rw [hop] at hb
      cases h
      exact ⟨by rw [hb]; rfl, rfl, rfl⟩

theorem decodeTx_sound {bytes rest : List Byte} {i : Instr} (h : decodeTx bytes = .ok (i, rest)) :
    EncodedAs .wireTx bytes i rest := by
  unfold decodeTx at h
  split at h
  case isTrue hw =>
    cases h
    exact ⟨by rw [encode, ← hw, List.take_append_drop], rfl, rfl⟩
  case isFalse =>
    split at h
    case isTrue hl =>
      cases h
      exact ⟨by rw [encode, ← hl, List.take_append_drop], rfl, rfl⟩
    case isFalse => cases h

theorem decodeAck_sound {bytes rest : List Byte} {i : Instr} (h : decodeAck bytes = .ok (i, rest)) :
    EncodedAs .wireRxAck bytes i rest := by
  unfold decodeAck at h
  split at h
  case isTrue ha =>
    cases h
    exact ⟨by rw [encode, ← ha, List.take_append_drop], rfl, rfl⟩
  case isFalse => cases h

theorem decodeFrame_sound {bytes rest : List Byte} {i : Instr} (h : decodeFrame bytes = .ok (i, rest)) :
    EncodedAs .wireRxFrame bytes i rest := by
  unfold decodeFrame at h
  split at h
  case h_2 => cases h
  case h_1 hi lo hsum =>
    split at h
    case isFalse => cases h
    case isTrue hshape =>
      obtain ⟨hhead, htrailer⟩ := hshape
      cases h
      have hlen : 100 ≤ bytes.length := by
        have := congrArg List.length hsum
        simp only [List.length_take, List.length_drop, List.length_cons, List.length_nil] at this
        omega
      refine ⟨?_, by simp [Instr.wellFormed]; omega, rfl⟩
      have hcut (n m : Nat) : bytes.drop n = (bytes.drop n).take m ++ bytes.drop (n + m) := by
        rw [← List.drop_drop, List.take_append_drop]
      calc bytes = bytes.take 4 ++ bytes.drop 4 := (List.take_append_drop 4 bytes).symm
        _ = bytes.take 4 ++ ((bytes.drop 4).take 92 ++ ((bytes.drop 96).take 2 ++ ((bytes.drop 98).take 2 ++
              bytes.drop 100))) := by rw [← hcut 98 2, ← hcut 96 2, ← hcut 4 92]
        _ = _ := by rw [hhead, htrailer, hsum]; simp only [encode, List.append_assoc]

theorem decodeField_sound {f : Field} {bytes rest : List Byte} {i : Instr}
    (h : decodeField f bytes = .ok (i, rest)) : EncodedAs (.field f) bytes i rest := by
  unfold decodeField at h
  split at h
  case h_7 => cases h
  all_goals
    cases h
    exact ⟨by simp [encode], rfl, rfl⟩

/-- Settles O8: each format's decoder checks the bytes it drops, and the operands it reads are those encoded. -/
theorem decodeAcceptsOnlyEncodings : Obligations.DecodeAcceptsOnlyEncodings := by
  intro f bytes rest i h
  cases f with
  | op => exact decodeOp_sound h
  | wireTx => exact decodeTx_sound h
  | wireRxAck => exact decodeAck_sound h
  | wireRxFrame => exact decodeFrame_sound h
  | field f => exact decodeField_sound h

end Sys2Proof.Machine
end

section
/-! PROOFS. What a step runs (40_pipeline_control.md R71; 10_state.md R25): the issue slot, the host's commands, and the
operation of PHASE. -/

namespace Sys2Proof.Machine

/-! ### The issue slot and table words -/

/-- What is read from bytes is read from them with more bytes after. -/
theorem decode_append {f : Format} {bytes rest : List Byte} {i : Instr} (h : decode f bytes = .ok (i, rest))
    (more : List Byte) : decode f (bytes ++ more) = .ok (i, rest ++ more) := by
  obtain ⟨hb, hi, rfl⟩ := decodeAcceptsOnlyEncodings f bytes rest i h
  rw [hb, List.append_assoc]
  exact decodeInvertsEncode i (rest ++ more) hi

theorem runBytes_error {f : Format} {bytes : List Byte} {e : DecodeError} (h : decode f bytes = .error e) (s : State) :
    runBytes f bytes s = .refused (.undecodable e) := by
  simp only [runBytes, h]

theorem step_withFetchWord (s : State) (nbits w : Nat) :
    step (s.withFetchWord nbits w) =
      runBytes (fetchWord nbits w).1 (fetchWord nbits w).2 { s with issue := none } :=
  step_issued (s := s.withFetchWord nbits w) rfl

theorem decode_fetchWord_of_some {nbits w : Nat} {i : Instr} (h : decodeTableWord nbits w = some i) :
    ∃ rest, decode (fetchWord nbits w).1 (fetchWord nbits w).2 = .ok (i, rest) := by
  unfold decodeTableWord at h
  cases ht : tableWord nbits w with
  | none => simp [ht] at h
  | some p =>
    rw [fetchWord_of_tableWord ht]
    cases hd : decode p.1 p.2 with
    | ok r => simp [ht, hd] at h; exact ⟨r.2, by rw [← h]⟩
    | error e => simp [ht, hd] at h

/-- Where the table has no row for a word, its bytes are no instruction of the format its width gives. -/
theorem decode_fetchWord_of_no_row {nbits w : Nat} (h : tableWord nbits w = none) :
    ∃ e, decode (fetchWord nbits w).1 (fetchWord nbits w).2 = .error e := by
  simp only [fetchWord, h]
  unfold tableWord at h
  by_cases h8 : nbits = 8
  · rw [if_pos h8] at h ⊢
    cases hd : decode .op (patternBytes 1 w) with
    | error e => exact ⟨e, rfl⟩
    | ok r =>
      have hops : decodeOp [BitVec.ofNat 8 w, 0#8, 0#8] = .ok (r.1, r.2 ++ [0#8, 0#8]) := by
        have := decode_append hd [0#8, 0#8]
        simpa [patternBytes, decode] using this
      simp [hops] at h
  · rw [if_neg h8] at h ⊢
    by_cases h16 : nbits = 16
    · rw [if_pos h16] at h ⊢
      cases hd : decodeAck (patternBytes 2 w) with
      | ok r => simp [hd] at h
      | error e => exact ⟨e, hd⟩
    · rw [if_neg h16] at h ⊢
      by_cases h56 : nbits = 56
      · rw [if_pos h56] at h ⊢
        cases hd : decodeTx (patternBytes 7 w) with
        | ok r => simp [hd] at h
        | error e => exact ⟨e, hd⟩
      · rw [if_neg h56] at h ⊢
        by_cases h800 : nbits = 800
        · rw [if_pos h800] at h ⊢
          cases hd : decodeFrame (patternBytes 100 w) with
          | ok r => simp [hd] at h
          | error e => exact ⟨e, hd⟩
        · rw [if_neg h800]
          exact ⟨.noBytes, rfl⟩

theorem decode_fetchWord_of_none {nbits w : Nat} (h : decodeTableWord nbits w = none) :
    ∃ e, decode (fetchWord nbits w).1 (fetchWord nbits w).2 = .error e := by
  cases ht : tableWord nbits w with
  | none => exact decode_fetchWord_of_no_row ht
  | some p =>
    rw [fetchWord_of_tableWord ht]
    cases hd : decode p.1 p.2 with
    | error e => exact ⟨e, rfl⟩
    | ok r => simp [decodeTableWord, ht, hd] at h

/-- Settles O5: each clause is the decoder's answer on the bytes that the step presents to it. -/
theorem stepRunsTheDecodedInstruction : Obligations.StepRunsTheDecodedInstruction := by
  refine ⟨fun s i rest hi h => ?_, fun s rest h hh => ?_, fun s nbits w i h => ?_, fun s nbits w h => ?_⟩
  · rw [step_issued h, runBytes_ok (decodeInvertsEncode i rest hi)]
  · rw [step_host h hh]; rfl
  · obtain ⟨rest, hd⟩ := decode_fetchWord_of_some h
    rw [step_withFetchWord, runBytes_ok hd]
  · obtain ⟨e, hd⟩ := decode_fetchWord_of_none h
    exact ⟨e, by rw [step_withFetchWord, runBytes_error hd]⟩

/-! ### The operation of PHASE -/

/-- The operation whose OPID is the phase's (R59). IDLE's is START, which the sequencer leaves to the host. -/
def Phase.operation : Phase → Instr
  | .idle => .start
  | .hsProbe => .hsProbe
  | .hsRdack => .hsRdack
  | .hsCmp => .hsCmp
  | .acqReq => .acqReq
  | .acqRead => .acqRead
  | .acqClose => .acqClose
  | .acqLen => .acqLen
  | .decEnv => .decEnv
  | .decCrc => .decCrc
  | .decFx => .decFx
  | .fcMap => .fcMap
  | .done => .haltOk
  | .failed => .haltErr

theorem decode_opid (p : Phase) : decode .op [p.opid] = .ok (p.operation, []) := by
  cases p <;> rfl

theorem sequencerStep_idle {s : State} (h : s.phase = .idle) : sequencerStep s = .next s := if_pos h

theorem sequencerStep_busy {s : State} (h : s.phase ≠ .idle) : sequencerStep s = exec s.phase.operation s := by
  rw [sequencerStep, if_neg h, runBytes_ok (decode_opid s.phase)]

/-- The state without the host command that this step takes: the one the step's operation finds (log entry 1). -/
def State.popHost (s : State) : State := { s with host := s.host.tail }

theorem popHost_of_nil {s : State} (h : s.host = []) : s.popHost = s := by
  obtain ⟨⟩ := s
  cases h
  rfl

theorem popHost_of_cons {s : State} {c : HostCmd} {rest : List HostCmd} (h : s.host = c :: rest) :
    s.popHost = { s with host := rest } := by
  rw [State.popHost, h, List.tail_cons]

/-- The host lets the sequencer step (log entry 1). -/
def State.hostQuiet (s : State) : Prop := s.host = [] ∨ ∃ rest, s.host = .quiet :: rest

theorem step_command {s : State} {c : HostCmd} {rest : List HostCmd} (hi : s.issue = none)
    (hh : s.host = c :: rest) : step s = hostStep c s.popHost := by
  rw [step_host hi hh, popHost_of_cons hh]

theorem step_quiet {s : State} (hi : s.issue = none) (hq : s.hostQuiet) : step s = sequencerStep s.popHost := by
  obtain hh | ⟨rest, hh⟩ := hq
  · rw [step_alone hi hh, popHost_of_nil hh]
  · rw [step_command hi hh, hostStep]

theorem step_quiet_idle {s : State} (hi : s.issue = none) (hq : s.hostQuiet) (hp : s.phase = .idle) :
    step s = .next s.popHost :=
  (step_quiet hi hq).trans (sequencerStep_idle hp)

theorem step_quiet_busy {s : State} (hi : s.issue = none) (hq : s.hostQuiet) (hp : s.phase ≠ .idle) :
    step s = exec s.phase.operation s.popHost :=
  (step_quiet hi hq).trans (sequencerStep_busy (s := s.popHost) hp)

/-- With the host's list empty, a step in a phase other than IDLE is the phase's operation. -/
theorem step_phase {s : State} {p : Phase} (hi : s.issue = none) (hh : s.host = []) (hp : s.phase = p)
    (hne : p ≠ .idle) : step s = exec p.operation s := by
  subst hp
  rw [step_quiet_busy hi (.inl hh) hne, popHost_of_nil hh]

/-- Settles O6: one rule for IDLE and one for the other phases, whose operations `Phase.operation` lists. -/
theorem stepRunsTheOperationOfThePhase : Obligations.StepRunsTheOperationOfThePhase := by
  intro s r hi hr
  have hq : s.hostQuiet ∧ r = s.popHost := by
    obtain ⟨hh, rfl⟩ | ⟨rest, hh, rfl⟩ := hr
    · exact ⟨.inl hh, (popHost_of_nil hh).symm⟩
    · exact ⟨.inr ⟨rest, hh⟩, (popHost_of_cons hh).symm⟩
  obtain ⟨hq, rfl⟩ := hq
  have hop {p : Phase} (hp : s.phase = p) (hne : p ≠ .idle) : step s = exec p.operation s.popHost := by
    subst hp
    exact step_quiet_busy hi hq hne
  exact ⟨step_quiet_idle hi hq, (hop · nofun), (hop · nofun), (hop · nofun), (hop · nofun), (hop · nofun),
    (hop · nofun), (hop · nofun), (hop · nofun), (hop · nofun), (hop · nofun), (hop · nofun), (hop · nofun),
    (hop · nofun)⟩

/-! ### The host -/

/-- Settles O3: `applyReset` is the reset state with what is not the block's (R170). -/
theorem hostResetAbandonsTheRunInAnyPhase : Obligations.HostResetAbandonsTheRunInAnyPhase := by
  intro s rest hi hh
  rw [step_host hi hh, hostStep, applyReset]

theorem hostStep_writeConfig_idle {s : State} {c : ConfigReg} (hp : s.phase = .idle) (hc : c.wellFormed = true) :
    hostStep (.writeConfig c) s = .next { s with config := c } := by
  rw [hostStep, if_pos hp, if_pos hc]

theorem hostStep_writeConfig_refused {s : State} {c : ConfigReg} (hp : s.phase = .idle) (hc : c.wellFormed = false) :
    hostStep (.writeConfig c) s = .refused .illFormedConfig := by
  rw [hostStep, if_pos hp, hc]; rfl

theorem hostStep_writeConfig_ignored {s : State} {c : ConfigReg} (hp : s.phase ≠ .idle) :
    hostStep (.writeConfig c) s = .next s := by
  rw [hostStep, if_neg hp]

/-- Settles O4: the four outcomes of a host write (R15, R17, R177). -/
theorem hostWritesActOnlyOnConfigInIdle : Obligations.HostWritesActOnlyOnConfigInIdle := by
  intro s c v rest hi
  exact ⟨fun hh hp hc => (step_host hi hh).trans (hostStep_writeConfig_idle hp hc),
    fun hh hp hc => (step_host hi hh).trans (hostStep_writeConfig_refused hp hc),
    fun hh hp => (step_host hi hh).trans (hostStep_writeConfig_ignored hp), fun hh => step_host hi hh⟩

theorem exec_start_idle {s : State} (h : s.phase = .idle) : exec .start s = .next { s with
    attempt := 0, err := .noError, framelen := 0, x := .allAbsent, label := ⟨false, s.label.label⟩, linkOpen := true,
    txlog := [], phase := .hsProbe } := if_pos h

theorem exec_start_busy {s : State} (h : s.phase ≠ .idle) : exec .start s = .next s := if_neg h

/-- Settles O10: the two branches of R70's test of PHASE. -/
theorem startOpensARunFromIdleOnly : Obligations.StartOpensARunFromIdleOnly :=
  fun _ => ⟨exec_start_idle, exec_start_busy⟩

theorem exec_haltOk (s : State) : exec .haltOk s = .next s := rfl

theorem exec_haltErr (s : State) : exec .haltErr s = .next s := rfl

/-- Settles O11. -/
theorem haltsChangeNothing : Obligations.HaltsChangeNothing :=
  fun s => ⟨exec_haltOk s, exec_haltErr s⟩

theorem hostStep_start (s : State) : hostStep .start s = exec .start s := rfl

/-- All that a step with nothing issued can do. -/
theorem step_cases {s t : State} (hi : s.issue = none) (h : step s = .next t) :
    t = s.popHost ∨
    (s.phase ≠ .idle ∧ s.hostQuiet ∧ exec s.phase.operation s.popHost = .next t) ∨
    (s.phase = .idle ∧ exec .start s.popHost = .next t) ∨
    (s.phase = .idle ∧ ∃ c rest, s.host = .writeConfig c :: rest ∧ c.wellFormed = true ∧
      t = { s.popHost with config := c }) ∨
    ∃ rest, s.host = .reset :: rest ∧ t = applyReset s.popHost := by
  have quiet (hq : s.hostQuiet) :
      t = s.popHost ∨ (s.phase ≠ .idle ∧ s.hostQuiet ∧ exec s.phase.operation s.popHost = .next t) := by
    by_cases hp : s.phase = .idle
    · rw [step_quiet_idle hi hq hp] at h
      cases h; exact .inl rfl
    · exact .inr ⟨hp, hq, (step_quiet_busy hi hq hp).symm.trans h⟩
  cases hh : s.host with
  | nil => exact (quiet (.inl hh)).imp_right .inl
  | cons c rest =>
    rw [step_command hi hh] at h
    cases c with
    | quiet => exact (quiet (.inr ⟨rest, hh⟩)).imp_right .inl
    | reset => cases h; exact .inr (.inr (.inr (.inr ⟨rest, rfl, rfl⟩)))
    | start =>
      by_cases hp : s.phase = .idle
      · exact .inr (.inr (.inl ⟨hp, h⟩))
      · cases (exec_start_busy (s := s.popHost) hp).symm.trans h
        exact .inl rfl
    | writeConfig c =>
      by_cases hp : s.phase = .idle
      · cases hc : c.wellFormed with
        | true =>
          cases (hostStep_writeConfig_idle (s := s.popHost) hp hc).symm.trans h
          exact .inr (.inr (.inr (.inl ⟨hp, c, rest, rfl, hc, rfl⟩)))
        | false => cases (hostStep_writeConfig_refused (s := s.popHost) hp hc).symm.trans h
      · cases (hostStep_writeConfig_ignored (s := s.popHost) hp).symm.trans h
        exact .inl rfl
    | writeStatus v => cases h; exact .inl rfl

/-! ### DONE and FAILED -/

theorem terminal_iff (p : Phase) : p.terminal = true ↔ p = .done ∨ p = .failed := by
  cases p <;> decide

theorem ne_idle_of_terminal {p : Phase} (h : p.terminal = true) : p ≠ .idle := by
  rintro rfl; cases h

theorem exec_operation_terminal {s : State} {p : Phase} (h : p.terminal = true) : exec p.operation s = .next s := by
  obtain rfl | rfl := (terminal_iff p).1 h
  · exact exec_haltOk s
  · exact exec_haltErr s

theorem run_terminal {s : State} (hi : s.issue = none) (hh : s.host = []) (ht : s.phase.terminal = true) (n : Nat) :
    core.run n s = .next s := by
  induction n with
  | zero => rfl
  | succ n ih =>
    rw [run_next ?_ n, ih]
    rw [step_phase hi hh rfl (ne_idle_of_terminal ht), exec_operation_terminal ht]

/-- Settles O12: the terminal phases' operations change nothing, START and a CONFIG write are ignored there, and of the
host's commands only reset is left. -/
theorem terminalPhasesAreLeftOnlyByReset : Obligations.TerminalPhasesAreLeftOnlyByReset := by
  intro s hi ht
  have hne := ne_idle_of_terminal ht
  refine ⟨fun hh n => run_terminal hi hh ht n, fun c rest t hh hs => ?_⟩
  rw [← popHost_of_cons hh]
  obtain rfl | ⟨-, -, h⟩ | ⟨hp, -⟩ | ⟨hp, -⟩ | ⟨_, hr, -⟩ := step_cases hi hs
  · exact .inr rfl
  · rw [exec_operation_terminal ht] at h
    cases h; exact .inr rfl
  · exact absurd hp hne
  · exact absurd hp hne
  · rw [hh] at hr
    cases hr; exact .inl rfl

end Sys2Proof.Machine
end

section
/-! PROOFS. What each meaning does where it completes or stops: the handshake, the acquisition, the error entry, the
wire rows, FC.MAP. -/

namespace Sys2Proof.Machine

/-! ### The error entry -/

/-- No error and the four conditions, in the order of R150. -/
def ErrCode.all : List ErrCode :=
  [.noError, .stationNotReady, .incompleteData, .malformedPacket, .unknownForecastCode]

theorem ErrCode.mem_all (e : ErrCode) : e ∈ ErrCode.all := by
  cases e <;> decide

/-- Well-formed codes are one to one: the list of them has no entry twice. -/
theorem ErrCodes.code_injective {codes : ErrCodes} (h : codes.wellFormed = true) {e e' : ErrCode}
    (he : e.code codes = e'.code codes) : e = e' := by
  have hnodup : (ErrCode.all.map (ErrCode.code codes)).Nodup := of_decide_eq_true h
  exact List.inj_on_of_nodup_map hnodup e.mem_all e'.mem_all he

/-- Settles O14: `raise_eq`, the injectivity of the codes, and the defaults of R150. -/
theorem raiseRecordsTheErrorAndFails : Obligations.RaiseRecordsTheErrorAndFails :=
  ⟨raise_eq, fun codes => ⟨errCode_noError codes, fun h _ _ => ErrCodes.code_injective h⟩, by decide, rfl, rfl, rfl,
    rfl⟩

/-! ### The handshake -/

theorem ackMatches_iff (s : State) :
    ackMatches s = true ↔ s.acklen = 2 ∧ s.ackbuf0 = 0x0A ∧ s.ackbuf1 = 0x0D := by
  simp [ackMatches, ackBytes]

theorem ackMatches_false_iff (s : State) :
    ackMatches s = false ↔ ¬ (s.acklen = 2 ∧ s.ackbuf0 = 0x0A ∧ s.ackbuf1 = 0x0D) := by
  rw [← ackMatches_iff, Bool.not_eq_true]

theorem exec_hsProbe_open {s : State} (h : s.linkOpen = true) : exec .hsProbe s = .next { s with
    attempt := nextAttempt s, txlog := s.txlog ++ wakeBytes, phase := .hsRdack } := by
  show execHsProbe s = _
  rw [execHsProbe, serWrite_open (by exact h), orFault_ok, State.goto]

theorem nextAttempt_toNat {s : State} (h : s.attempt.toNat ≤ 2) : (nextAttempt s).toNat = s.attempt.toNat + 1 := by
  have hne : s.attempt ≠ 3 := by
    intro e
    rw [e] at h
    exact absurd h (by decide)
  rw [nextAttempt, if_neg hne, BitVec.toNat_add]
  show (s.attempt.toNat + 1) % 4 = _
  omega

/-- Settles O22: the one write of R90 and the sum of R13. -/
theorem probeCountsTheAttemptAndSendsWake : Obligations.ProbeCountsTheAttemptAndSendsWake :=
  fun _ hl => ⟨_, exec_hsProbe_open hl, rfl, nextAttempt_toNat⟩

theorem exec_hsRdack_open {s : State} (h : s.linkOpen = true) : exec .hsRdack s =
    .next (((nextAnswer s).2.setAck ((nextAnswer s).1.take 2)).goto .hsCmp) := by
  show execHsRdack s = _
  rw [execHsRdack, serRead_open h, orFault_ok]

theorem nextAnswer_cons {s : State} {a : List Byte} {rest : List (List Byte)} (h : s.rx = a :: rest) :
    nextAnswer s = (a, { s with rx := rest }) := by
  simp only [nextAnswer, h]

/-- Settles O23: the answer of `serRead`, cut to two bytes, is what `setAck` stores. -/
theorem readAckStoresTheAnswer : Obligations.ReadAckStoresTheAnswer := by
  intro s hl
  have hex := exec_hsRdack_open hl
  obtain ⟨r, -, hr, ht, h0, h1⟩ := execHsRdack_next hex
  have hlen : r.length ≤ 2 := by rw [hr, List.length_take]; omega
  refine ⟨r, _, hex, hlen, ?_, ?_, ?_, fun a rest hrx => by rw [hr, nextAnswer_cons hrx]⟩
  · conv_lhs => rw [ht]
    rw [ht]
  · rw [ht, BitVec.toNat_ofNat]
    omega
  · intro k hk
    obtain rfl | rfl : k = 0 ∨ k = 1 := by omega
    · rw [h0 _ (List.getElem?_eq_getElem hk)]; rfl
    · rw [h1 _ (List.getElem?_eq_getElem hk)]; rfl

theorem exec_hsCmp_ack {s : State} (h : ackMatches s = true) : exec .hsCmp s = .next { s with phase := .acqReq } := by
  show execHsCmp s = _
  rw [execHsCmp, if_pos h, State.goto]

theorem exec_hsCmp_retry {s : State} (h : ackMatches s = false) (ha : s.attempt.toNat < 3) :
    exec .hsCmp s = .next { s with phase := .hsProbe } := by
  show execHsCmp s = _
  rw [execHsCmp, h, if_neg nofun, if_pos ha, State.goto]

theorem exec_hsCmp_fail {s : State} (h : ackMatches s = false) (ha : ¬ s.attempt.toNat < 3) :
    exec .hsCmp s = .next { s with linkOpen := false, err := .stationNotReady, phase := .failed } := by
  show execHsCmp s = _
  rw [execHsCmp, h, if_neg nofun, if_neg ha, raise_eq]

/-- Settles O24: the three outcomes of R92's tests. -/
theorem compareProceedsRetriesOrFails : Obligations.CompareProceedsRetriesOrFails := by
  intro s
  refine ⟨fun h => exec_hsCmp_ack ((ackMatches_iff s).2 h), fun h ha => ?_, fun h ha => ?_⟩
  · exact exec_hsCmp_retry ((ackMatches_false_iff s).2 h) ha
  · exact exec_hsCmp_fail ((ackMatches_false_iff s).2 h) (by omega)

/-! ### The acquisition -/

theorem exec_acqReq_open {s : State} (h : s.linkOpen = true) :
    exec .acqReq s = .next { s with txlog := s.txlog ++ loop1Bytes, phase := .acqRead } := by
  show execAcqReq s = _
  rw [execAcqReq, serWrite_open h, orFault_ok, State.goto]

/-- Settles O27. -/
theorem requestSendsLoopOnce : Obligations.RequestSendsLoopOnce := fun _ => exec_acqReq_open

theorem exec_acqRead_open {s : State} (h : s.linkOpen = true) : exec .acqRead s =
    .next (((nextAnswer s).2.setFrame ((nextAnswer s).1.take 100)).goto .acqClose) := by
  show execAcqRead s = _
  rw [execAcqRead, serRead_open h, orFault_ok, Config.frameLen]

theorem exec_acqLen_short {s : State} (h : s.framelen.toNat < 100) :
    exec .acqLen s = .next { s with linkOpen := false, err := .incompleteData, phase := .failed } := by
  show execAcqLen s = _
  rw [execAcqLen, Config.frameLen, if_pos h, raise_eq]

theorem exec_acqLen_full {s : State} (h : 100 ≤ s.framelen.toNat) :
    exec .acqLen s = .next { s with phase := .decEnv } := by
  show execAcqLen s = _
  rw [execAcqLen, Config.frameLen, if_neg (Nat.not_lt.2 h), State.goto]

/-- Settles O30: the two sides of R103's test. -/
theorem shortFramesAreIncompleteData : Obligations.ShortFramesAreIncompleteData :=
  fun _ => ⟨exec_acqLen_short, exec_acqLen_full⟩

/-! ### The wire rows -/

theorem exec_wake_open {s : State} (h : s.linkOpen = true) :
    exec .wake s = .next { s with txlog := s.txlog ++ wakeBytes } := by
  show execWake s = _
  rw [execWake, serWrite_open h, orFault_ok]

theorem exec_loop1_open {s : State} (h : s.linkOpen = true) :
    exec .loop1 s = .next { s with txlog := s.txlog ++ loop1Bytes } := by
  show execLoop1 s = _
  rw [execLoop1, serWrite_open h, orFault_ok]

theorem exec_ack (s : State) : exec .ack s = .next { s with rx := s.rx ++ [ackBytes] } := rfl

theorem exec_frame (body : List Byte) (hi lo : Byte) (s : State) :
    exec (.frame body hi lo) s = .next { s with rx := s.rx ++ [encode (.frame body hi lo)] } := rfl

/-- Settles O49: the rows' bytes are those of R51 to R54. -/
theorem wireRowsTravelOnTheirStreams : Obligations.WireRowsTravelOnTheirStreams := by
  intro s body hi lo
  refine ⟨exec_wake_open, exec_loop1_open, exec_ack s, ?_⟩
  rw [exec_frame, encode, List.append_assoc]
  rfl

/-! ### Where the primitives stop -/

theorem orFault_closed_write {s : State} (h : s.linkOpen = false) (bytes : List Byte) (k : State → Result) :
    orFault (serWrite s bytes) k = .fault .linkClosed := by
  rw [serWrite_closed h, orFault_error]

theorem orFault_closed_read {s : State} (h : s.linkOpen = false) (n : Nat) (k : List Byte × State → Result) :
    orFault (serRead s n) k = .fault .linkClosed := by
  rw [serRead_closed h, orFault_error]

theorem exec_linkClosed {s : State} (h : s.linkOpen = false) {i : Instr}
    (hi : i ∈ [Instr.hsProbe, .hsRdack, .acqReq, .acqRead, .wake, .loop1]) : exec i s = .fault .linkClosed := by
  simp only [List.mem_cons, List.not_mem_nil, or_false] at hi
  obtain rfl | rfl | rfl | rfl | rfl | rfl := hi
  · exact orFault_closed_write (s := { s with attempt := nextAttempt s }) h _ _
  · exact orFault_closed_read h _ _
  · exact orFault_closed_write h _ _
  · exact orFault_closed_read h _ _
  · exact orFault_closed_write h _ _
  · exact orFault_closed_write h _ _

theorem readByte_unwritten {s : State} {a : Nat} (h : a < 100) (hl : s.framelen.toNat ≤ a) :
    readByte s a = .error .frameUnspecified := by
  rw [readByte, Config.frameLen, if_pos h, if_neg (Nat.not_lt.2 hl)]

theorem readByte_outside {s : State} {a : Nat} (h : 100 ≤ a) : readByte s a = .error .outsideFrame :=
  if_neg (Nat.not_lt.2 h)

/-- Settles O32. -/
theorem primitivesStopOutsideTheirDomain : Obligations.PrimitivesStopOutsideTheirDomain :=
  ⟨fun _ _ hi h => exec_linkClosed h hi, fun _ _ => ⟨readByte_unwritten, readByte_outside⟩⟩

/-! ### FC.MAP and the hand-off -/

theorem exec_fcMap_known {s : State} {l : Label} (h : tableLookup s.table (iconCode s) = some l) :
    exec .fcMap s = .next { s with label := ⟨true, l⟩, phase := .done } := by
  show execFcMap s = _
  simp only [execFcMap, h, State.goto]

theorem exec_fcMap_unknown {s : State} (h : tableLookup s.table (iconCode s) = none) :
    exec .fcMap s = .next { s with linkOpen := false, err := .unknownForecastCode, phase := .failed } := by
  show execFcMap s = _
  simp only [execFcMap, h, raise_eq]

/-- Settles O47: the code of the statement is `iconCode`, and the table decides. -/
theorem forecastLookupIsTotalOrFailing : Obligations.ForecastLookupIsTotalOrFailing := by
  intro s code hc
  have hcode : code = iconCode s := BitVec.eq_of_toNat_eq (by rw [hc, iconCode, lowHalf_toNat])
  subst hcode
  exact ⟨fun l => exec_fcMap_known, exec_fcMap_unknown⟩

theorem handoff_done {s : State} (h : s.phase = .done) : handoff s = some {
    state := if s.config.forecastEn ∧ s.label.valid then some s.label.label else none
    pressure := fieldValue s.config .pressure s.x.pressure
    temperature := fieldValue s.config .temperature s.x.temperature
    windSpeed := fieldValue s.config .windSpeed s.x.windSpeed
    windBearing := if s.config.bearingEn then some (fieldValue s.config .windBearing s.x.windBearing) else none
    humidity := fieldValue s.config .humidity s.x.humidity } := if_pos h

theorem handoff_other {s : State} (h : s.phase ≠ .done) : handoff s = none := if_neg h

/-- Settles O48: in DONE the invariant makes LABEL the table's entry for the icon code. -/
theorem handoffHappensOnlyInDone : Obligations.HandoffHappensOnlyInDone := by
  intro s hinv
  by_cases hp : s.phase = .done
  · refine ⟨by simp [handoff_done hp, hp], fun h hh => ?_⟩
    cases (handoff_done hp).symm.trans hh
    refine ⟨?_, rfl, rfl, rfl, rfl, rfl⟩
    cases hf : s.config.forecastEn with
    | false => simp
    | true =>
      obtain ⟨hvalid, hlabel⟩ := hinv.forecast hp hf
      simp [hvalid, hlabel]
  · exact ⟨by simp [handoff_other hp, hp], fun h hh => by cases (handoff_other hp).symm.trans hh⟩

/-! ### The host's registers -/

theorem busy_iff (s : State) : busy s = true ↔ s.phase ≠ .idle ∧ s.phase.terminal = false := by
  rw [busy, decide_eq_true_eq, ← Bool.not_eq_true, terminal_iff, not_or]

theorem status_toNat (s : State) : (status s).toNat = s.phase.code.toNat + (if busy s then 16 else 0) +
    (if s.phase = .done then 32 else 0) + (if s.phase = .failed then 64 else 0) + (if s.linkOpen then 128 else 0) := by
  unfold status busy
  cases s.phase <;> cases s.linkOpen <;> rfl

/-- Settles O50. -/
theorem hostRegistersShowTheState : Obligations.HostRegistersShowTheState := by
  intro s
  refine ⟨status_toNat s, busy_iff s, rfl, rfl, fun n h => ?_, rfl, fun n h => ?_⟩
  · match n, h with
    | 0, _ | 1, _ | 2, _ | 3, _ | 4, _ | 5, _ => rfl
  · match n, h with
    | n + 9, _ => rfl

/-- Settles O9: fixed words, computed. -/
theorem specWordsDecodeAsTabulated : Obligations.SpecWordsDecodeAsTabulated :=
  ⟨rfl, rfl, rfl, rfl, rfl, rfl, rfl, rfl, rfl, rfl, rfl, rfl, rfl, rfl, rfl, rfl⟩

/-! ### The reset state -/

theorem XFile.get_allAbsent (f : Field) : XFile.allAbsent.get f = .absent := by
  cases f <;> rfl

/-- Settles O1: FRAMELEN is 0 at reset, so no byte of FRAME has a value. -/
theorem resetStateHoldsTheSpecsValues : Obligations.ResetStateHoldsTheSpecsValues :=
  ⟨rfl, rfl, rfl, rfl, rfl, XFile.get_allAbsent, rfl, rfl, fun _ ha => readByte_unwritten ha (Nat.zero_le _), rfl, rfl⟩

end Sys2Proof.Machine
end

section
/-! PROOFS. The Checksum Engine (41_checksum.md R80 to R86). Every transform is linear over XOR, since its lines shift and
XOR; a well-formed one moves the low half up unchanged and loses no byte of the high half. -/

namespace Sys2Proof.Machine

/-! ### The two halves under XOR -/

theorem highHalf_xor (v w : Half) : highHalf (v ^^^ w) = highHalf v ^^^ highHalf w := BitVec.extractLsb'_xor

theorem lowHalf_xor (v w : Half) : lowHalf (v ^^^ w) = lowHalf v ^^^ lowHalf w := BitVec.extractLsb'_xor

theorem halves_xor (h l h' l' : Byte) : halves (h ^^^ h') (l ^^^ l') = halves h l ^^^ halves h' l' := by
  rw [← halves_high_low (halves h l ^^^ halves h' l'), highHalf_xor, lowHalf_xor, highHalf_halves, highHalf_halves,
    lowHalf_halves, lowHalf_halves]

theorem halves_zero : halves 0 0 = 0 := rfl

theorem halves_inj {h l h' l' : Byte} : halves h l = halves h' l' ↔ h = h' ∧ l = l' := by
  constructor
  · intro e
    exact ⟨by simpa using congrArg highHalf e, by simpa using congrArg lowHalf e⟩
  · rintro ⟨rfl, rfl⟩
    rfl

/-! ### Linearity of a transform -/

/-- XOR of two pairs. -/
def CrcPair.xor (p q : CrcPair) : CrcPair := ⟨p.x ^^^ q.x, p.y ^^^ q.y⟩

theorem shiftByte_xor (a b : Byte) (d : ShiftDir) (n : BitVec 3) :
    shiftByte (a ^^^ b) d n = shiftByte a d n ^^^ shiftByte b d n := by
  cases d with
  | left => exact BitVec.shiftLeft_xor_distrib a b n.toNat
  | right => exact BitVec.ushiftRight_xor_distrib a b n.toNat

theorem CrcPair.get_xor (p q : CrcPair) (c : CrcByte) : (p.xor q).get c = p.get c ^^^ q.get c := by
  cases c <;> rfl

theorem xor_xor_xor_comm {n : Nat} (a b c d : BitVec n) : (a ^^^ b) ^^^ (c ^^^ d) = (a ^^^ c) ^^^ (b ^^^ d) := by
  rw [BitVec.xor_assoc, BitVec.xor_assoc, ← BitVec.xor_assoc b, BitVec.xor_comm b c, BitVec.xor_assoc c]

theorem crcOp_xor (p q : CrcPair) (op : CrcOp) : crcOp (p.xor q) op = (crcOp p op).xor (crcOp q op) := by
  simp only [crcOp, CrcPair.get_xor, shiftByte_xor]
  cases op.target with
  | x => exact congrArg (CrcPair.mk · (p.y ^^^ q.y)) (xor_xor_xor_comm ..)
  | y => exact congrArg (CrcPair.mk (p.x ^^^ q.x)) (xor_xor_xor_comm ..)

theorem crcMix_xor (transform : List CrcOp) : ∀ p q : CrcPair,
    crcMix transform (p.xor q) = (crcMix transform p).xor (crcMix transform q) := by
  induction transform with
  | nil => intros; rfl
  | cons op ops ih =>
    intro p q
    rw [crcMix_cons, crcMix_cons, crcMix_cons, crcOp_xor, ih]

theorem crcStep_xor (transform : List CrcOp) (c d : Half) (a b : Byte) :
    crcStep transform (c ^^^ d) (a ^^^ b) = crcStep transform c a ^^^ crcStep transform d b := by
  have hmix : crcMix transform ⟨(a ^^^ b) ^^^ highHalf (c ^^^ d), lowHalf (c ^^^ d)⟩ =
      (crcMix transform ⟨a ^^^ highHalf c, lowHalf c⟩).xor (crcMix transform ⟨b ^^^ highHalf d, lowHalf d⟩) := by
    rw [← crcMix_xor, CrcPair.xor, highHalf_xor, lowHalf_xor, xor_xor_xor_comm]
  simp only [crcStep, hmix, CrcPair.xor, halves_xor]

theorem crc16_append (transform : List CrcOp) (a b : List Byte) (init : Half) :
    crc16 transform (a ++ b) init = crc16 transform b (crc16 transform a init) := List.foldl_append

theorem crc16_xor (transform : List CrcOp) : ∀ (a b : List Byte) (u v : Half), a.length = b.length →
    crc16 transform (List.zipWith (· ^^^ ·) a b) (u ^^^ v) = crc16 transform a u ^^^ crc16 transform b v := by
  intro a
  induction a with
  | nil =>
    intro b u v h
    rw [List.eq_nil_of_length_eq_zero h.symm]
    rfl
  | cons x xs ih =>
    intro b u v h
    cases b with
    | nil => cases h
    | cons y ys =>
      rw [List.zipWith_cons_cons, crc16_cons, crc16_cons, crc16_cons, crcStep_xor, ih ys _ _ (Nat.succ.inj h)]

/-- Settles O21: the checksum is a fold, and each step of it is linear. -/
theorem checksumChainsAndIsLinear : Obligations.ChecksumChainsAndIsLinear := by
  refine ⟨crc16_append, fun transform a b h => ?_⟩
  have := crc16_xor transform a b 0 0 h
  rwa [BitVec.xor_self] at this

/-! ### Well-formed transforms -/

/-- Only the XOR of the byte and the high half counts (R86). -/
theorem crcStep_eq_step_zero (transform : List CrcOp) (h l b : Byte) :
    crcStep transform (halves h l) b = crcStep transform (halves (h ^^^ b) l) 0 := by
  simp only [crcStep, highHalf_halves, lowHalf_halves, BitVec.ofNat_eq_ofNat, BitVec.zero_xor, BitVec.xor_comm b h]

/-- A byte equal to the high half leaves `{CRC_LO, 0x00}` (R85 (a)). -/
theorem crcStep_of_high {transform : List CrcOp} (hw : crcWellFormed transform = true) (h l : Byte) :
    crcStep transform (halves h l) h = halves l 0 := by
  obtain ⟨-, -, hlow, -⟩ := (crcWellFormed_iff transform).1 hw
  simp only [crcStep, highHalf_halves, lowHalf_halves, BitVec.xor_self]
  rw [show (0#8) = 0 from rfl, hlow]

theorem crcMix_split {transform : List CrcOp} (hw : crcWellFormed transform = true) (h l : Byte) :
    crcMix transform ⟨h, l⟩ = (crcMix transform ⟨h, 0⟩).xor ⟨0, l⟩ := by
  obtain ⟨-, -, hlow, -⟩ := (crcWellFormed_iff transform).1 hw
  calc crcMix transform ⟨h, l⟩ = crcMix transform (CrcPair.xor ⟨h, 0⟩ ⟨0, l⟩) := by simp [CrcPair.xor]
    _ = (crcMix transform ⟨h, 0⟩).xor ⟨0, l⟩ := by rw [crcMix_xor, hlow]

/-- Only the register 0 is taken to 0 by a byte 0. -/
theorem eq_zero_of_crcStep_zero {transform : List CrcOp} (hw : crcWellFormed transform = true) {c : Half}
    (h : crcStep transform c 0 = 0) : c = 0 := by
  obtain ⟨-, -, hlow, hkept⟩ := (crcWellFormed_iff transform).1 hw
  rw [← halves_high_low c] at h ⊢
  generalize highHalf c = hi at h ⊢
  generalize lowHalf c = lo at h ⊢
  have hmix : halves (crcMix transform ⟨hi, lo⟩).y (crcMix transform ⟨hi, lo⟩).x = halves 0 0 := by
    rw [halves_zero, ← h]
    simp only [crcStep, highHalf_halves, lowHalf_halves, BitVec.ofNat_eq_ofNat, BitVec.zero_xor]
  obtain ⟨hy, hx⟩ := halves_inj.1 hmix
  have hhi : hi = 0 := by
    by_contra hne
    rw [crcMix_split hw, CrcPair.xor] at hx
    exact hkept hi hne (by simpa using hx)
  subst hhi
  rw [hlow] at hy
  exact halves_inj.2 ⟨rfl, hy⟩

theorem crcStep_injective {transform : List CrcOp} (hw : crcWellFormed transform = true) {c d : Half} {b : Byte}
    (h : crcStep transform c b = crcStep transform d b) : c = d := by
  have hxor : crcStep transform (c ^^^ d) 0 = 0 := by
    have := crcStep_xor transform c d b b
    rwa [BitVec.xor_self, h, BitVec.xor_self] at this
  exact BitVec.xor_eq_zero_iff.1 (eq_zero_of_crcStep_zero hw hxor)

theorem crc16_injective {transform : List CrcOp} (hw : crcWellFormed transform = true) (s : List Byte) :
    ∀ {c d : Half}, crc16 transform s c = crc16 transform s d → c = d := by
  induction s with
  | nil => exact id
  | cons b s ih => exact fun h => crcStep_injective hw (ih h)

/-- Settles O19: a trailer equal to the checksum shifts it out; and since steps are injective, no other does. -/
theorem zeroResidueMeansTheTrailerIsTheChecksum : Obligations.ZeroResidueMeansTheTrailerIsTheChecksum := by
  intro transform m h l hw
  have hzero : crc16 transform [h, l] (halves h l) = 0 := by
    rw [crc16_cons, crcStep_of_high hw, crc16_cons, crcStep_of_high hw, crc16_nil]
    rfl
  rw [crc16_append]
  constructor
  · intro hres
    exact crc16_injective hw [h, l] (hzero.trans hres.symm)
  · intro he
    rw [← he, hzero]

theorem crcStep_byte_injective {transform : List CrcOp} (hw : crcWellFormed transform = true) {c : Half} {a b : Byte}
    (h : crcStep transform c a = crcStep transform c b) : a = b := by
  rw [← halves_high_low c, crcStep_eq_step_zero, crcStep_eq_step_zero _ _ _ b] at h
  have := (halves_inj.1 (crcStep_injective hw h)).1
  rwa [BitVec.xor_right_inj] at this

theorem one_shiftLeft_ne_zero {k : Nat} (hk : k < 8) : 1#8 <<< k ≠ 0 := by
  intro h
  have := congrArg (·.getLsbD k) h
  simp [hk] at this

/-- Settles O20: the flipped byte gives another register, and the bytes after it keep the two apart. -/
theorem everySingleBitErrorIsDetected : Obligations.EverySingleBitErrorIsDetected := by
  intro transform p q b k hw hk hgood hbad
  rw [crc16_append, crc16_cons] at hgood hbad
  have hb : b ^^^ (1#8 <<< k) = b := crcStep_byte_injective hw (crc16_injective hw q (hbad.trans hgood.symm))
  exact one_shiftLeft_ne_zero hk ((BitVec.xor_right_inj b).1 (hb.trans (BitVec.xor_zero).symm))

/-- R81's transform: its two checks on bytes are 256 cases each. -/
theorem crcWellFormed_default : crcWellFormed Params.default.crcStep = true := by decide +kernel

/-! ### The instructions -/

theorem exec_crcUpdate (b : Byte) (s : State) :
    exec (.crcUpdate b) s = .next (s.setCrc (crcStep s.params.crcStep s.crc b)) := rfl

/-- Settles O17: of every transform, that the byte is XORed into the high half; of a well-formed one, R85 (a) and that
CRC.UPDATE is injective. -/
theorem everyTransformKeepsWhatTheSourceFixes : Obligations.EveryTransformKeepsWhatTheSourceFixes := by
  refine ⟨crcWellFormed_default, fun s b => ?_, fun s hw => ?_, fun s s' t t' b hw hp ht ht' hhi hlo => ?_⟩
  · have hstep : crcStep s.params.crcStep s.crc b = crcStep s.params.crcStep (halves (s.crcHi ^^^ b) s.crcLo) 0 :=
      crcStep_eq_step_zero _ _ _ _
    exact ⟨_, _, exec_crcUpdate b s, exec_crcUpdate 0 _, congrArg highHalf hstep, congrArg lowHalf hstep⟩
  · rw [exec_crcUpdate, State.crc, crcStep_of_high hw, State.setCrc, highHalf_halves, lowHalf_halves]
  · cases ht
    cases ht'
    have hstep : crcStep s.params.crcStep s.crc b = crcStep s.params.crcStep s'.crc b := by
      rw [setCrc_crcHi, setCrc_crcHi, ← hp] at hhi
      rw [setCrc_crcLo, setCrc_crcLo, ← hp] at hlo
      rw [← halves_high_low (crcStep _ s.crc b), hhi, hlo, halves_high_low]
    exact halves_inj.1 (crcStep_injective hw hstep)

theorem crc_toNat (s : State) : s.crc.toNat = 256 * s.crcHi.toNat + s.crcLo.toNat := by
  rw [State.crc, halves_toNat, Nat.add_comm]

theorem crcIsZero_iff (s : State) : crcIsZero s = true ↔ 256 * s.crcHi.toNat + s.crcLo.toNat = 0 := by
  rw [crcIsZero, decide_eq_true_eq, ← crc_toNat, ← BitVec.toNat_inj]
  rfl

theorem exec_crcResult (s : State) : exec .crcResult s = .next { s with ret := s.crc } := rfl

theorem exec_crcCheck (s : State) : exec .crcCheck s = .next { s with ret := if crcIsZero s then 1 else 0 } := rfl

/-- Settles O18. -/
theorem checksumReadsReturnTheRegister : Obligations.ChecksumReadsReturnTheRegister := by
  intro s
  refine ⟨?_, ?_⟩
  · rw [exec_crcResult, ← crc_toNat, BitVec.ofNat_toNat, BitVec.setWidth_eq]
  · simp only [exec_crcCheck, crcIsZero_iff]

/-! ### R81's two definitions of the default transform -/

theorem crcStep_default (c : Half) (b : Byte) : crcStep CrcOp.default c b = crcStepDefault c b := by
  simp only [crcStep, CrcOp.default, crcMix_cons, crcMix_nil, crcOp, CrcPair.get, shiftByte, crcStepDefault,
    crcStepHalves]
  rfl

theorem crcBit_xor (c d : Half) : crcBit (c ^^^ d) = crcBit c ^^^ crcBit d := by
  unfold crcBit
  rw [BitVec.getLsbD_xor, BitVec.shiftLeft_xor_distrib]
  cases c.getLsbD 15 <;> cases d.getLsbD 15
  · rfl
  · exact BitVec.xor_assoc ..
  · show c <<< 1 ^^^ d <<< 1 ^^^ 0x1021#16 = c <<< 1 ^^^ 0x1021#16 ^^^ d <<< 1
    rw [BitVec.xor_assoc, BitVec.xor_comm (d <<< 1), BitVec.xor_assoc]
  · show c <<< 1 ^^^ d <<< 1 = (c <<< 1 ^^^ 0x1021#16) ^^^ (d <<< 1 ^^^ 0x1021#16)
    rw [xor_xor_xor_comm, BitVec.xor_self, BitVec.xor_zero]

/-- Eight steps of the division, linear as each of them is. -/
def crcBits (c : Half) : Half := crcBit (crcBit (crcBit (crcBit (crcBit (crcBit (crcBit (crcBit c)))))))

theorem crcBits_xor (c d : Half) : crcBits (c ^^^ d) = crcBits c ^^^ crcBits d := by
  simp only [crcBits, crcBit_xor]

/-- Eight steps move the low half up, as it does not reach bit 15. -/
theorem crcBits_low : ∀ l : Byte, crcBits (halves 0 l) = halves l 0 := by decide +kernel

theorem crcBits_high : ∀ x : Byte,
    crcBits (halves x 0) = halves (crcStepHalves x 0 0).1 (crcStepHalves x 0 0).2 := by decide +kernel

theorem crcStepSerial_eq (hi lo b : Byte) :
    crcStepSerial (halves hi lo) b = crcBits (halves (hi ^^^ b) 0) ^^^ crcBits (halves 0 lo) := by
  have hsplit : halves hi lo ^^^ (b.setWidth 16 <<< 8) = halves (hi ^^^ b) 0 ^^^ halves 0 lo := by
    have hb : b.setWidth 16 <<< 8 = halves b 0 := by
      apply BitVec.eq_of_toNat_eq
      rw [halves_toNat, BitVec.toNat_shiftLeft, BitVec.toNat_setWidth, Nat.shiftLeft_eq]
      show _ = 0 + 256 * b.toNat
      omega
    rw [hb, ← halves_xor, ← halves_xor]
    simp
  rw [← crcBits_xor, ← hsplit]
  rfl

theorem crcStepSerial_eq_halves (hi lo b : Byte) :
    crcStepSerial (halves hi lo) b = halves (crcStepHalves hi lo b).1 (crcStepHalves hi lo b).2 := by
  rw [crcStepSerial_eq, crcBits_low, crcBits_high, ← halves_xor]
  simp only [crcStepHalves, BitVec.ofNat_eq_ofNat, BitVec.zero_xor, BitVec.xor_zero, BitVec.xor_comm b hi,
    BitVec.xor_comm _ lo, BitVec.xor_assoc lo]

/-- Settles O16: the model's lines are R81's, and both definitions of R81 are linear, so that they agree where they
agree on each half alone. -/
theorem crcUpdateIsTheBitSerialDivision : Obligations.CrcUpdateIsTheBitSerialDivision := by
  intro s b
  refine ⟨_, exec_crcUpdate b s, rfl, fun hd => ?_⟩
  have hstep : crcStep s.params.crcStep s.crc b = crcStepDefault s.crc b := by
    rw [hd]
    exact crcStep_default s.crc b
  rw [hstep, setCrc_crcHi, setCrc_crcLo, halves_high_low, State.crc, crcStepSerial_eq_halves]
  simp only [crcStepDefault, highHalf_halves, lowHalf_halves, and_self]

end Sys2Proof.Machine
end

section
/-! PROOFS. FRAME: what the acquisition read leaves in it (43_acquisition.md), and what the decoder's operations read of
it (44_decoder_envelope.md, 45_field_extract.md). -/

namespace Sys2Proof.Machine

/-! ### Reads after the acquisition read -/

theorem ofNat_framelen_toNat {n : Nat} (h : n ≤ 100) : (BitVec.ofNat 7 n).toNat = n := by
  rw [BitVec.toNat_ofNat]
  omega

theorem readByte_setFrame {s : State} {r : List Byte} (hr : r.length ≤ 100) {k : Nat} (hk : k < r.length) :
    readByte (s.setFrame r) k = .ok r[k] := by
  refine (readByte_ok_iff _ _ _).2 ⟨by omega, ?_, ?_⟩
  · rwa [setFrame_framelen, ofNat_framelen_toNat hr]
  · rw [setFrame_frame, Memory.lookup_writeFrom, if_pos (by omega), Nat.sub_zero, List.getElem?_eq_getElem hk]

theorem readByte_setFrame_beyond {s : State} {r : List Byte} {k : Nat} (hk : r.length ≤ k) (h : k < 100) :
    readByte (s.setFrame r) k = .error .frameUnspecified := by
  apply readByte_unwritten h
  rw [setFrame_framelen, ofNat_framelen_toNat (by omega)]
  exact hk

theorem readBytes_setFrame {s : State} {r : List Byte} (hr : r.length = 100) :
    readBytes (s.setFrame r) 0 100 = .ok r := by
  refine (readBytes_ok_iff _ _ _ _).2 ⟨hr, fun k hk => ?_⟩
  rw [Nat.zero_add]
  exact readByte_setFrame (by omega) hk

/-- Settles O28: FRAME is `setFrame` of the answer, whose reads are those of the bytes written from address 0 on. -/
theorem acquisitionReadFillsTheFrame : Obligations.AcquisitionReadFillsTheFrame := by
  intro s hl
  have hex := exec_acqRead_open hl
  obtain ⟨r, -, hr, ht⟩ := execAcqRead_next hex
  have hlen : r.length ≤ 100 := by rw [hr, List.length_take]; omega
  rw [← hr] at hex ht
  have hread (k : Nat) : readByte (((nextAnswer s).2.setFrame r).goto .acqClose) k =
      readByte ((nextAnswer s).2.setFrame r) k := readByte_congr rfl rfl k
  refine ⟨r, _, hex, hlen, ?_, ofNat_framelen_toNat hlen, fun k hk => ?_, fun k hk h => ?_, fun a rest hrx => ?_,
    fun hwf => ?_⟩
  · conv_lhs => rw [ht]
    rw [ht]
  · rw [hread, readByte_setFrame hlen hk]
  · rw [hread, readByte_setFrame_beyond hk h]
  · rw [hr, nextAnswer_cons hrx]
  · rw [ht]
    exact Memory.writeFrom_wf r s.frame 0 (by rw [Config.frameLen]; omega) hwf

/-! ### Reads of a whole frame -/

section WholeFrame

variable {s : State} {f : List Byte} (hf : readBytes s 0 100 = .ok f)

include hf

theorem frame_length : f.length = 100 := ((readBytes_ok_iff s 100 0 f).1 hf).1

theorem readByte_of_frame {a : Nat} (ha : a < f.length) : readByte s a = .ok f[a] := by
  have := ((readBytes_ok_iff s 100 0 f).1 hf).2 a ha
  rwa [Nat.zero_add] at this

theorem readBytes_of_frame {a n : Nat} (h : a + n ≤ 100) : readBytes s a n = .ok ((f.drop a).take n) := by
  have hlen := frame_length hf
  refine (readBytes_ok_iff s n a _).2 ⟨by rw [List.length_take, List.length_drop]; omega, fun k hk => ?_⟩
  have hk' : a + k < f.length := by
    rw [List.length_take, List.length_drop] at hk
    omega
  rw [readByte_of_frame hf hk', List.getElem_take, List.getElem_drop]

/-- The payload is the frame without its first byte, and offset `n` of it stands at address `n + 1` (R36). -/
theorem readByte_payload {off : Nat} (h : off < 99) (d : Byte) :
    readByte s (off + 1) = .ok ((f.drop 1).getD off d) := by
  have hlt : 1 + off < f.length := by rw [frame_length hf]; omega
  have hget : (f.drop 1).getD off d = f[1 + off] := by
    rw [List.getD_eq_getElem?_getD, List.getElem?_drop, List.getElem?_eq_getElem hlt, Option.getD_some]
  rw [hget, Nat.add_comm off 1]
  exact readByte_of_frame hf hlt

theorem readBytes_payload : readBytes s Config.payloadBase Config.payloadLen = .ok (f.drop 1) := by
  have hlen := frame_length hf
  have hall : (f.drop 1).take 99 = f.drop 1 := List.take_of_length_le (by rw [List.length_drop]; omega)
  rw [Config.payloadBase, Config.payloadLen, readBytes_of_frame hf (by decide), hall]

theorem shapeOf_of_frame : shapeOf s = .ok (shapeMatches f) := by
  simp only [shapeOf, readBytes_of_frame hf (show 0 + 4 ≤ 100 by decide),
    readBytes_of_frame hf (show 96 + 2 ≤ 100 by decide), List.drop_zero, shapeMatches]

end WholeFrame

/-! ### DEC.ENV -/

theorem take_four_eq_iff (l : List Byte) (a b c d : Byte) :
    l.take 4 = [a, b, c, d] ↔ l[0]? = some a ∧ l[1]? = some b ∧ l[2]? = some c ∧ l[3]? = some d := by
  rcases l with _ | ⟨w, _ | ⟨x, _ | ⟨y, _ | ⟨z, l⟩⟩⟩⟩ <;> simp

theorem take_two_eq_iff (l : List Byte) (a b : Byte) : l.take 2 = [a, b] ↔ l[0]? = some a ∧ l[1]? = some b := by
  rcases l with _ | ⟨w, _ | ⟨x, l⟩⟩ <;> simp

/-- The envelope is six bytes at fixed places (R54, R110). -/
theorem shapeMatches_iff (f : List Byte) : shapeMatches f = true ↔
    f[0]? = some 0x06 ∧ f[1]? = some 0x4C ∧ f[2]? = some 0x4F ∧ f[3]? = some 0x4F ∧ f[96]? = some 0x0A ∧
      f[97]? = some 0x0D := by
  rw [shapeMatches, decide_eq_true_eq, frameHead, frameTrailer, take_four_eq_iff, take_two_eq_iff, List.getElem?_drop,
    List.getElem?_drop]
  simp only [and_assoc]
  rfl

theorem exec_decEnv_match {s : State} (h : shapeOf s = .ok true) : exec .decEnv s = .next { s with phase := .decCrc } := by
  show execDecEnv s = _
  rw [execDecEnv, h, orFault_ok, if_pos rfl, State.goto]

theorem exec_decEnv_mismatch {s : State} (h : shapeOf s = .ok false) :
    exec .decEnv s = .next { s with linkOpen := false, err := .malformedPacket, phase := .failed } := by
  show execDecEnv s = _
  rw [execDecEnv, h, orFault_ok, if_neg nofun, raise_eq]

/-- Settles O33. -/
theorem envelopeMatchDecidesByItsSixBytes : Obligations.EnvelopeMatchDecidesByItsSixBytes := by
  intro s f hf
  rw [← shapeMatches_iff, Bool.not_eq_true]
  exact ⟨fun h => exec_decEnv_match ((shapeOf_of_frame hf).trans (congrArg _ h)),
    fun h => exec_decEnv_mismatch ((shapeOf_of_frame hf).trans (congrArg _ h))⟩

/-! ### DEC.CRC -/

theorem crcIsZero_setCrc (s : State) (c : Half) : crcIsZero (s.setCrc c) = true ↔ c = 0 := by
  rw [crcIsZero, setCrc_crc, decide_eq_true_eq]

theorem exec_decCrc_zero {s : State} {f : List Byte} (hf : readBytes s 0 100 = .ok f)
    (h : crc16 s.params.crcStep (f.drop 1) 0 = 0) :
    exec .decCrc s = .next { s with crcHi := 0, crcLo := 0, phase := .decFx } := by
  show execDecCrc s = _
  rw [execDecCrc, readBytes_payload hf, orFault_ok]
  dsimp only
  rw [if_pos ((crcIsZero_setCrc ..).2 h), h]
  rfl

theorem exec_decCrc_nonzero {s : State} {f : List Byte} (hf : readBytes s 0 100 = .ok f)
    (h : crc16 s.params.crcStep (f.drop 1) 0 ≠ 0) :
    exec .decCrc s = .next { s.setCrc (crc16 s.params.crcStep (f.drop 1) 0) with
      linkOpen := false, err := .malformedPacket, phase := .failed } := by
  show execDecCrc s = _
  rw [execDecCrc, readBytes_payload hf, orFault_ok]
  dsimp only
  rw [if_neg (mt (crcIsZero_setCrc ..).1 h), raise_eq]

/-- Settles O34. -/
theorem checksumTestDecidesByZeroResidue : Obligations.ChecksumTestDecidesByZeroResidue := by
  intro s f hf
  by_cases h : crc16 s.params.crcStep (f.drop 1) 0 = 0
  · exact ⟨_, exec_decCrc_zero hf h, halves_zero.trans h.symm, fun _ => rfl, fun hne => absurd h hne⟩
  · exact ⟨_, exec_decCrc_nonzero hf h, halves_high_low _, fun h0 => absurd h0 h, fun _ => rfl⟩

/-! ### The loads -/

/-- Settles O35: a payload offset is the frame address one above it, and two bytes are read low byte first. -/
theorem loadsReturnPayloadBytes : Obligations.LoadsReturnPayloadBytes := by
  intro s off lo hi hlo
  refine ⟨?_, fun hhi => ?_⟩
  · show execLdU8 off s = _
    rw [execLdU8, loadU8, Config.payloadBase, hlo, BitVec.ofNat_toNat]
    rfl
  · show execLdU16le off s = _
    rw [execLdU16le, loadU16, Config.payloadBase, readHalf_of_bytes hlo hhi, orFault_ok, halves_eq_ofNat]
    rfl

end Sys2Proof.Machine
end

section
/-! PROOFS. The fields (30_encoding.md R56, R58; 45_field_extract.md): what a descriptor makes of a raw value, and DEC.FX on
a whole frame against `fieldsOf`. -/

namespace Sys2Proof.Machine

/-! ### The assembly of R58, on numbers -/

theorem ofNat_half_inj {n k : Nat} (hn : n < 65536) (hk : k < 65536) :
    BitVec.ofNat 16 n = BitVec.ofNat 16 k ↔ n = k :=
  ⟨fun h => by_contra fun hne => ofNat_half_ne hn hk hne h, congrArg _⟩

/-- A descriptor with a sentinel `k` and no normalisation. -/
theorem assemble_sentinel (w : Nat) (sg : Bool) (e : Int) {n k : Nat} (hn : n < 65536) (hk : k < 65536) :
    assemble ⟨w, some (BitVec.ofNat 16 k), none, sg, e⟩ (BitVec.ofNat 16 n) =
      if n = k then .absent else present n := by
  simp only [assemble, Option.some.injEq, ofNat_half_inj hk hn, eq_comm (a := k)]
  rfl

/-- A descriptor with neither. -/
theorem assemble_plain (w : Nat) (sg : Bool) (e : Int) (raw : Half) :
    assemble ⟨w, none, none, sg, e⟩ raw = ⟨true, raw⟩ := rfl

/-- The bearing's descriptor: the sentinel 0, and 360 for true north. -/
theorem assemble_bearing (c : ConfigReg) {n : Nat} (hn : n < 65536) :
    assemble (descriptor c .windBearing) (BitVec.ofNat 16 n) =
      if n = 0 then .absent else if n = 360 then present 0 else present n := by
  have h0 : (0 : Half) = BitVec.ofNat 16 n ↔ n = 0 :=
    (ofNat_half_inj (n := 0) (by decide) hn).trans eq_comm
  have h360 : BitVec.ofNat 16 n = (360 : Half) ↔ n = 360 := ofNat_half_inj (k := 360) hn (by decide)
  simp only [assemble, descriptor, Option.some.injEq, h0, h360]
  split
  · rfl
  · split <;> rfl

theorem present_toNat (raw : Half) : present raw.toNat = ⟨true, raw⟩ := by
  rw [present, BitVec.ofNat_toNat, BitVec.setWidth_eq]

/-- Settles O37: the sentinel is 32767, whatever TEMP_SIGNED is (R123). -/
theorem temperatureFieldIsExtracted : Obligations.TemperatureFieldIsExtracted := by
  intro s lo hi hlo hhi
  have hraw := fieldRaw_of_bytes (f := .temperature) rfl hlo hhi
  show extractField .temperature s = _
  rw [extractField_of_raw rfl hraw]
  exact congrArg (fun r => Host.Outcome.next (s.setX .temperature r))
    (assemble_sentinel 2 s.config.tempSigned (-1) (n := lo.toNat + 256 * hi.toNat) (k := 32767) (by omega) (by decide))

/-! ### The FIELD rows -/

theorem acceptField_eq (f : Field) (raw : Half) (s : State) :
    acceptField f raw s = .next (s.setX f (fieldOfRaw s.config f raw)) := rfl

theorem fieldOfRaw_present {c : ConfigReg} {f : Field} (h : fieldPresent c f = true) (raw : Half) :
    fieldOfRaw c f raw = assemble (descriptor c f) raw := if_pos h

theorem fieldOfRaw_sentinel {c : ConfigReg} {f : Field} {w k : Nat} {sg : Bool} {e : Int}
    (hp : fieldPresent c f = true) (hd : descriptor c f = ⟨w, some (BitVec.ofNat 16 k), none, sg, e⟩)
    (hk : k < 65536) (raw : Half) :
    fieldOfRaw c f raw = if raw.toNat = k then ⟨false, 0⟩ else ⟨true, raw⟩ := by
  have h := assemble_sentinel w sg e raw.isLt hk
  rw [BitVec.ofNat_toNat, BitVec.setWidth_eq, present_toNat] at h
  rw [fieldOfRaw_present hp, hd, h]
  rfl

theorem fieldOfRaw_bearing (c : ConfigReg) (raw : Half) :
    fieldOfRaw c .windBearing raw =
      if c.bearingEn = false ∨ raw.toNat = 0 then ⟨false, 0⟩
      else if raw.toNat = 360 then ⟨true, 0⟩ else ⟨true, raw⟩ := by
  cases hb : c.bearingEn with
  | false => simp [fieldOfRaw, fieldPresent, hb, XReg.absent]
  | true =>
    have h := assemble_bearing c raw.isLt
    rw [BitVec.ofNat_toNat, BitVec.setWidth_eq, present_toNat] at h
    rw [fieldOfRaw_present (f := .windBearing) hb, h]
    simp only [Bool.true_eq_false, false_or]
    rfl

theorem byte_setWidth_half (v : Byte) : v.setWidth 16 = BitVec.ofNat 16 v.toNat := (BitVec.ofNat_toNat 16 v).symm

theorem byte_setWidth_half_toNat (v : Byte) : (v.setWidth 16).toNat = v.toNat := by
  rw [BitVec.toNat_setWidth]
  omega

/-- A one-byte row whose sentinel is 255. -/
theorem fieldOfRaw_byte {c : ConfigReg} {f : Field} (hp : fieldPresent c f = true)
    (hd : descriptor c f = ⟨1, some 255, none, false, 0⟩) (v : Byte) :
    fieldOfRaw c f (v.setWidth 16) = if v.toNat = 255 then ⟨false, 0⟩ else ⟨true, BitVec.ofNat 16 v.toNat⟩ := by
  rw [fieldOfRaw_sentinel (k := 255) hp hd (by decide), byte_setWidth_half_toNat, byte_setWidth_half]

/-- Settles O43: every row is `acceptField` of its field. -/
theorem fieldRowsFollowTheirDescriptors : Obligations.FieldRowsFollowTheirDescriptors := by
  intro s raw v
  have hrow {f : Field} {raw : Half} {r : XReg} (hr : fieldOfRaw s.config f raw = r) :
      acceptField f raw s = .next (s.setX f r) := by
    rw [acceptField_eq, hr]
  exact ⟨hrow (fieldOfRaw_sentinel (k := 0) rfl rfl (by decide) raw),
    hrow (fieldOfRaw_sentinel (k := 32767) rfl rfl (by decide) raw), hrow (fieldOfRaw_byte rfl rfl v),
    hrow (fieldOfRaw_bearing s.config raw), hrow (fieldOfRaw_byte rfl rfl v),
    hrow ((assemble_plain 1 false 0 _).trans (by rw [byte_setWidth_half]))⟩

/-! ### The value of a register -/

theorem s16_eq_toInt (v : Half) : s16 v = v.toInt := by
  rw [s16, BitVec.toInt_eq_toNat_cond]
  have := v.isLt
  split <;> split <;> omega

/-- Settles O46: the sign is the descriptor's, and only the temperature's depends on CONFIG. -/
theorem registerValuesAreExactDecimals : Obligations.RegisterValuesAreExactDecimals := by
  intro c f raw
  refine ⟨rfl, rfl, fun h => ?_, fun h => ?_, fun hp ht => ?_⟩
  · simp [fieldValue, descriptor, h, s16_eq_toInt]
  · simp [fieldValue, descriptor, h]
  · cases f with
    | pressure => exact absurd rfl hp
    | temperature => exact absurd rfl ht
    | windSpeed | windBearing | humidity | icon => rfl

/-! ### DEC.FX on a whole frame -/

/-- A field lies inside the payload (R17, R56). -/
def fieldInside (c : ConfigReg) (f : Field) : Prop := (fieldOffset c f).toNat + (descriptor c f).width ≤ 99

/-- A well-formed layout has every field it has inside the payload. -/
theorem fieldInside_of_wellFormed {c : ConfigReg} (h : c.wellFormed = true) {f : Field}
    (hp : fieldPresent c f = true) : fieldInside c f := by
  simp only [ConfigReg.wellFormed, Bool.and_eq_true, Bool.or_eq_true, Bool.not_eq_true',
    decide_eq_true_eq] at h
  obtain ⟨⟨⟨⟨⟨hpressure, htemp⟩, hwind⟩, hbearing⟩, hhum⟩, hicon⟩ := h
  cases f with
  | pressure => exact hpressure
  | temperature => exact htemp
  | windSpeed => exact hwind
  | windBearing => exact hbearing.resolve_left (by rw [show c.bearingEn = true from hp]; decide)
  | humidity => exact hhum
  | icon => exact hicon

theorem payloadByte_lt (p : List Byte) (off : Nat) : payloadByte p off < 256 := BitVec.isLt _

theorem payloadRaw_lt (p : List Byte) (c : ConfigReg) (f : Field) : payloadRaw p c f < 65536 := by
  have h := payloadByte_lt p
  cases f with
  | pressure => have := h c.pressureOff.toNat; have := h (c.pressureOff.toNat + 1); simp only [payloadRaw]; omega
  | temperature => have := h c.tempOff.toNat; have := h (c.tempOff.toNat + 1); simp only [payloadRaw]; omega
  | windSpeed => exact (h _).trans (by decide)
  | windBearing => have := h c.bearingOff.toNat; have := h (c.bearingOff.toNat + 1); simp only [payloadRaw]; omega
  | humidity => exact (h _).trans (by decide)
  | icon => exact (h _).trans (by decide)

section WholeFrame

variable {s : State} {f : List Byte} (hf : readBytes s 0 100 = .ok f)

include hf

theorem fieldRaw_word {g : Field} (hw : (descriptor s.config g).width = 2) (hin : fieldInside s.config g) :
    fieldRaw s g = .ok (BitVec.ofNat 16 (payloadByte (f.drop 1) (fieldOffset s.config g).toNat +
      256 * payloadByte (f.drop 1) ((fieldOffset s.config g).toNat + 1))) := by
  rw [fieldInside, hw] at hin
  exact fieldRaw_of_bytes hw (readByte_payload hf (by omega) _) (readByte_payload hf (by omega) _)

theorem fieldRaw_byte {g : Field} (hw : (descriptor s.config g).width = 1) (hin : fieldInside s.config g) :
    fieldRaw s g = .ok (BitVec.ofNat 16 (payloadByte (f.drop 1) (fieldOffset s.config g).toNat)) := by
  rw [fieldInside, hw] at hin
  exact fieldRaw_of_byte hw (readByte_payload hf (by omega) _)

/-- The raw bits that R58 reads are the number that `fields(P, LAYOUT)` reads. -/
theorem fieldRaw_of_frame {g : Field} (hin : fieldInside s.config g) :
    fieldRaw s g = .ok (BitVec.ofNat 16 (payloadRaw (f.drop 1) s.config g)) := by
  cases g with
  | pressure | temperature | windBearing => exact fieldRaw_word hf rfl hin
  | windSpeed | humidity | icon => exact fieldRaw_byte hf rfl hin

theorem fieldResult_of_frame (hwf : s.config.wellFormed = true) (g : Field) :
    fieldResult s g = .ok ((fieldsOf (f.drop 1) s.config).get g) := by
  cases hp : fieldPresent s.config g with
  | false =>
    cases g with
    | windBearing =>
      have hb : s.config.bearingEn = false := hp
      rw [fieldResult_absent hb, XFile.get, fieldsOf, if_pos hb]
    | pressure | temperature | windSpeed | humidity | icon => cases hp
  | true =>
    have hraw := fieldRaw_of_frame hf (fieldInside_of_wellFormed hwf hp)
    have hlt := payloadRaw_lt (f.drop 1) s.config g
    rw [fieldResult, if_pos hp, hraw]
    refine congrArg Except.ok ?_
    cases g with
    | pressure => exact assemble_sentinel 2 false (-3) (k := 0) hlt (by decide)
    | temperature => exact assemble_sentinel 2 s.config.tempSigned (-1) (k := 32767) hlt (by decide)
    | windSpeed => exact assemble_sentinel 1 false 0 (k := 255) hlt (by decide)
    | windBearing =>
      have hb : s.config.bearingEn = true := hp
      simp only [assemble_bearing _ hlt, XFile.get, fieldsOf, hb, Bool.true_eq_false, if_false]
    | humidity => exact assemble_sentinel 1 false 0 (k := 255) hlt (by decide)
    | icon => exact assemble_plain 1 false 0 _

theorem allFields_of_frame (hwf : s.config.wellFormed = true) :
    allFields s = .ok (fieldsOf (f.drop 1) s.config) := by
  simp only [allFields, fieldResult_of_frame hf hwf]
  rfl

theorem exec_decFx_frame (hwf : s.config.wellFormed = true) : exec .decFx s = .next { s with
    x := fieldsOf (f.drop 1) s.config, phase := if s.config.forecastEn then .fcMap else .done } := by
  show execDecFx s = _
  rw [execDecFx, allFields_of_frame hf hwf, orFault_ok]
  rfl

end WholeFrame

/-- Settles O42: each register is its own field's result, and R128 reads them all before it writes. -/
theorem extractionWritesAllSixFields : Obligations.ExtractionWritesAllSixFields :=
  fun _ _ hwf hf => exec_decFx_frame hf hwf

end Sys2Proof.Machine
end

section
/-! PROOFS. Who writes what (10_state.md R10): one table of the registers each instruction may write, that `exec` keeps to,
and from it the statements about single registers. -/

namespace Sys2Proof.Machine

/-! ### The table of what is written -/

/-- `s` with the registers that `i` may write taken from `t`: R10's column "written by", with the model's own fields
(log entries 5, 6, 14 to 17). -/
def writtenBy (i : Instr) (s t : State) : State :=
  match i with
  | .start => { s with
      attempt := t.attempt, err := t.err, framelen := t.framelen, x := t.x, label := t.label, linkOpen := t.linkOpen,
      txlog := t.txlog, phase := t.phase }
  | .hsProbe => { s with attempt := t.attempt, txlog := t.txlog, phase := t.phase }
  | .hsRdack => { s with
      ackbuf0 := t.ackbuf0, ackbuf1 := t.ackbuf1, acklen := t.acklen, rx := t.rx, drawn := t.drawn, phase := t.phase }
  | .hsCmp | .acqLen | .decEnv => { s with linkOpen := t.linkOpen, err := t.err, phase := t.phase }
  | .acqReq => { s with txlog := t.txlog, phase := t.phase }
  | .acqRead => { s with
      frame := t.frame, framelen := t.framelen, rx := t.rx, drawn := t.drawn, phase := t.phase }
  | .acqClose => { s with linkOpen := t.linkOpen, phase := t.phase }
  | .decCrc => { s with crcHi := t.crcHi, crcLo := t.crcLo, linkOpen := t.linkOpen, err := t.err, phase := t.phase }
  | .crcInit _ | .crcUpdate _ => { s with crcHi := t.crcHi, crcLo := t.crcLo }
  | .crcResult | .crcCheck | .ldU8 _ | .ldU16le _ => { s with ret := t.ret }
  | .decFx => { s with x := t.x, phase := t.phase }
  | .fxPressure | .fieldPressure _ => { s with x.pressure := t.x.pressure }
  | .fxTemp | .fieldTemperature _ => { s with x.temperature := t.x.temperature }
  | .fxWind | .fieldWindSpeed _ => { s with x.windSpeed := t.x.windSpeed }
  | .fxBearing | .fieldWindBearing _ => { s with x.windBearing := t.x.windBearing }
  | .fxHum | .fieldHumidity _ => { s with x.humidity := t.x.humidity }
  | .fxIcon | .fieldIcon _ => { s with x.icon := t.x.icon }
  | .fcMap => { s with label := t.label, linkOpen := t.linkOpen, err := t.err, phase := t.phase }
  | .haltOk | .haltErr => s
  | .wake | .loop1 => { s with txlog := t.txlog }
  | .ack | .frame _ _ _ => { s with rx := t.rx }

theorem extractField_written {f : Field} {s t : State} (h : extractField f s = .next t) :
    t = s.setX f (t.x.get f) := by
  obtain ⟨r, -, rfl⟩ := extractField_next h
  rw [setX_x, XFile.get_set_same]

/-- An instruction that completes writes nothing but what the table names for it. -/
theorem exec_written {i : Instr} {s t : State} (h : exec i s = .next t) : t = writtenBy i s t := by
  cases i
  case start =>
    by_cases hp : s.phase = .idle
    · cases (exec_start_idle hp).symm.trans h; rfl
    · cases (exec_start_busy hp).symm.trans h; rfl
  case hsProbe => obtain ⟨-, rfl⟩ := execHsProbe_next h; rfl
  case hsRdack =>
    obtain ⟨r, -, -, ht, -, -⟩ := execHsRdack_next h
    conv_lhs => rw [ht]
    rw [ht]
    rfl
  case hsCmp => obtain ⟨-, rfl⟩ | ⟨-, -, rfl⟩ | ⟨-, -, rfl⟩ := execHsCmp_next h <;> rfl
  case acqReq => obtain ⟨-, rfl⟩ := execAcqReq_next h; rfl
  case acqRead =>
    obtain ⟨r, -, -, ht⟩ := execAcqRead_next h
    conv_lhs => rw [ht]
    rw [ht]
    rfl
  case acqLen => obtain ⟨-, rfl⟩ | ⟨-, rfl⟩ := execAcqLen_next h <;> rfl
  case decEnv => obtain ⟨-, rfl⟩ | ⟨-, rfl⟩ := execDecEnv_next h <;> rfl
  case decCrc => obtain ⟨p, -, ⟨-, rfl⟩ | ⟨-, rfl⟩⟩ := execDecCrc_next h <;> rfl
  case decFx => obtain ⟨x, -, rfl⟩ := execDecFx_next h; rfl
  case fxPressure | fxTemp | fxWind | fxBearing | fxHum | fxIcon => exact extractField_written h
  case ldU8 => obtain ⟨v, -, rfl⟩ := execLdU8_next h; rfl
  case ldU16le => obtain ⟨v, -, rfl⟩ := execLdU16le_next h; rfl
  case fcMap => obtain ⟨l, -, rfl⟩ | ⟨-, rfl⟩ := execFcMap_next h <;> rfl
  case wake => obtain ⟨-, rfl⟩ := execWake_next h; rfl
  case loop1 => obtain ⟨-, rfl⟩ := execLoop1_next h; rfl
  -- The others complete in every state, and their next state is written out in their meaning.
  all_goals cases h; rfl

/-! ### Single registers -/

/-- Settles O54: each clause reads the table of `writtenBy` for one register. -/
theorem instructionsWriteOnlyTheirRegisters : Obligations.InstructionsWriteOnlyTheirRegisters := by
  intro i s t h
  rw [exec_written h]
  refine ⟨?_, ?_, ?_, ?_, fun a hne => ?read, ?_⟩
  case read =>
    by_contra hi
    refine hne (readByte_congr ?_ ?_ a)
    all_goals cases i <;> simp [writtenBy] at hi ⊢
  all_goals cases i <;> simp [writtenBy]

/-- CONFIG, the table, the other parameters, the host's list and the issue slot stand in no column of the table. -/
theorem exec_configuration {i : Instr} {s t : State} (h : exec i s = .next t) :
    t.config = s.config ∧ t.table = s.table ∧ t.params = s.params ∧ t.host = s.host ∧ t.issue = s.issue := by
  rw [exec_written h]
  cases i <;> exact ⟨rfl, rfl, rfl, rfl, rfl⟩

theorem runBytes_next {f : Format} {bytes : List Byte} {s t : State} (h : runBytes f bytes s = .next t) :
    ∃ i, exec i s = .next t := by
  cases hd : decode f bytes with
  | ok r => exact ⟨r.1, (runBytes_ok hd s).symm.trans h⟩
  | error e => cases (runBytes_error hd s).symm.trans h

/-- A step keeps them, but for the two commands with which the host writes CONFIG (R17, R170). -/
theorem step_configuration {s t : State} (h : step s = .next t) :
    t.table = s.table ∧ t.params = s.params ∧ (t.config = s.config ∨
      ∃ rest, (∃ c, s.host = .writeConfig c :: rest ∧ s.phase = .idle ∧ c.wellFormed = true ∧ t.config = c) ∨
        s.host = .reset :: rest) := by
  cases hi : s.issue with
  | some p =>
    obtain ⟨i, hx⟩ := runBytes_next ((step_issued hi).symm.trans h)
    obtain ⟨hc, ht, hp, -⟩ := exec_configuration hx
    exact ⟨ht, hp, .inl hc⟩
  | none =>
    obtain rfl | ⟨-, -, hx⟩ | ⟨-, hx⟩ | ⟨hp, c, rest, hh, hc, rfl⟩ | ⟨rest, hh, rfl⟩ := step_cases hi h
    · exact ⟨rfl, rfl, .inl rfl⟩
    · obtain ⟨hc, ht, hp, -⟩ := exec_configuration hx
      exact ⟨ht, hp, .inl hc⟩
    · obtain ⟨hc, ht, hp, -⟩ := exec_configuration hx
      exact ⟨ht, hp, .inl hc⟩
    · exact ⟨rfl, rfl, .inr ⟨rest, .inl ⟨c, hh, hp, hc, rfl⟩⟩⟩
    · exact ⟨rfl, rfl, .inr ⟨rest, .inr hh⟩⟩

/-- Settles O52. -/
theorem configurationIsConstantDuringARun : Obligations.ConfigurationIsConstantDuringARun := by
  refine ⟨fun i s t => exec_configuration, fun s t h => ?_, fun s t h hne => ?_⟩
  · obtain ⟨ht, hp, -⟩ := step_configuration h
    exact ⟨ht, hp⟩
  · obtain ⟨-, -, hc⟩ := step_configuration h
    exact hc.resolve_left hne

/-- Settles O51: FRAME stands in ACQ.READ's row of the table alone, and FRAMELEN, on which a read depends too, in
START's. -/
theorem onlyTheAcquisitionReadWritesFrame : Obligations.OnlyTheAcquisitionReadWritesFrame := by
  intro i s t hi h
  obtain ⟨-, -, hlen, hframe, hread, -⟩ := instructionsWriteOnlyTheirRegisters i s t h
  refine ⟨by_contra fun hne => hi (hframe hne), fun hact a => ?_, fun hs hp a ha => ?_⟩
  · by_cases hs : i = .start
    · subst hs
      cases (exec_start_busy (hact.resolve_left fun hne => hne rfl)).symm.trans h
      rfl
    · by_contra hne
      simpa [hs, hi] using hread a hne
  · subst hs
    cases (exec_start_idle hp).symm.trans h
    exact readByte_unwritten ha (Nat.zero_le _)

/-- Settles O53: TXLOG stands in five rows of the table; START empties it, and the other four send on an open link. -/
theorem onlyProbeRequestAndCommandRowsTransmit : Obligations.OnlyProbeRequestAndCommandRowsTransmit := by
  intro i s t h hne
  have hi : i ∈ [Instr.start, .hsProbe, .wake, .acqReq, .loop1] := by
    by_contra hi
    refine hne ?_
    rw [exec_written h]
    cases i <;> simp [writtenBy] at hi ⊢
  simp only [List.mem_cons, List.not_mem_nil, or_false] at hi
  obtain rfl | rfl | rfl | rfl | rfl := hi
  · by_cases hp : s.phase = .idle
    · cases (exec_start_idle hp).symm.trans h
      exact .inl ⟨rfl, hp, rfl⟩
    · cases (exec_start_busy hp).symm.trans h
      exact absurd rfl hne
  · obtain ⟨hl, rfl⟩ := execHsProbe_next h
    exact .inr (.inl ⟨hl, by simp, rfl⟩)
  · obtain ⟨hl, rfl⟩ := execWake_next h
    exact .inr (.inl ⟨hl, by simp, rfl⟩)
  · obtain ⟨hl, rfl⟩ := execAcqReq_next h
    exact .inr (.inr ⟨hl, by simp, rfl⟩)
  · obtain ⟨hl, rfl⟩ := execLoop1_next h
    exact .inr (.inr ⟨hl, by simp, rfl⟩)

end Sys2Proof.Machine
end

section
/-! PROOFS. The invariant (10_state.md R27), taken apart: what holds in every phase, what depends on how far the run has
come, and what the phase and ERR say by themselves. -/

namespace Sys2Proof.Machine

/-! ### How far a run has come -/

/-- How far the run has come: 1 acked, 2 requested, 3 complete, 4 validated, 5 measured. A failed run has come as far as
the operation that raises its error. -/
def stageOf : Phase → ErrCode → Nat
  | .idle, _ | .hsProbe, _ | .hsRdack, _ | .hsCmp, _ => 0
  | .acqReq, _ => 1
  | .acqRead, _ | .acqClose, _ | .acqLen, _ => 2
  | .decEnv, _ | .decCrc, _ => 3
  | .decFx, _ => 4
  | .fcMap, _ | .done, _ => 5
  | .failed, .stationNotReady => 0
  | .failed, .noError | .failed, .incompleteData => 2
  | .failed, .malformedPacket => 3
  | .failed, .unknownForecastCode => 5

def State.stage (s : State) : Nat := stageOf s.phase s.err

theorem acked_iff (s : State) : s.acked ↔ 1 ≤ s.stage := by
  unfold State.acked State.stage
  cases s.phase <;> cases s.err <;> decide

theorem requested_iff (s : State) : s.requested ↔ 2 ≤ s.stage := by
  unfold State.requested State.stage
  cases s.phase <;> cases s.err <;> decide

theorem complete_iff (s : State) : s.complete ↔ 3 ≤ s.stage := by
  unfold State.complete State.stage
  cases s.phase <;> cases s.err <;> decide

theorem validated_iff (s : State) : s.validated ↔ 4 ≤ s.stage := by
  unfold State.validated State.stage
  cases s.phase <;> cases s.err <;> decide

theorem measured_iff (s : State) : s.measured ↔ 5 ≤ s.stage := by
  unfold State.measured State.stage
  cases s.phase <;> cases s.err <;> decide

/-! ### The three parts of the invariant -/

/-- The clauses of `Inv` that name neither PHASE nor ERR. -/
structure Static (s : State) : Prop where
  noIssue    : s.issue = none
  frameWf    : Memory.wf s.frame = true
  frameLen   : s.framelen.toNat ≤ 100
  frameFull  : ∀ a < s.framelen.toNat, (Memory.lookup s.frame a).isSome
  configWf   : s.config.wellFormed = true
  tableSunny : tableLookup s.table 8 = some .sunny
  transform  : crcWellFormed s.params.crcStep = true
  codes      : s.params.errCodes.wellFormed = true
  acklen     : s.acklen.toNat ≤ 2
  clean      : s.x.Clean

/-- The clauses of `Inv` that depend on how far the run has come, at stage `n`. -/
structure Staged (n : Nat) (s : State) : Prop where
  sentWake   : n < 2 → s.txlog = List.replicate s.attempt.toNat 0x0A#8
  sentAll    : 2 ≤ n → s.txlog = List.replicate s.attempt.toNat 0x0A#8 ++ loop1Bytes
  acked      : 1 ≤ n → ackMatches s = true
  complete   : 3 ≤ n → s.framelen = 100
  shape      : 4 ≤ n → shapeMatches s.frameBytes = true
  residue    : 4 ≤ n → crc16 s.params.crcStep (s.frameBytes.drop 1) 0 = 0
  unmeasured : n < 5 → s.x = .allAbsent
  measured   : 5 ≤ n → s.x = fieldsOf (s.frameBytes.drop 1) s.config

/-- The clauses of `Inv` that PHASE and ERR decide by themselves. -/
structure PhaseFacts (s : State) : Prop where
  link         : s.linkOpen = s.phase.linkPhase
  error        : s.err ≠ .noError ↔ s.phase = .failed
  attemptIdle  : s.phase = .idle → s.attempt = 0
  attemptProbe : s.phase = .hsProbe → s.attempt.toNat ≤ 2
  attemptRun   : s.phase ≠ .idle → s.phase ≠ .hsProbe → 1 ≤ s.attempt.toNat
  attemptOut   : s.err = .stationNotReady → s.attempt = 3
  unread       : s.phase.beforeRead = true → s.framelen = 0
  short        : s.err = .incompleteData → s.framelen.toNat < 100
  shape        : s.phase = .decCrc → shapeMatches s.frameBytes = true
  mapping      : s.phase = .fcMap ∨ s.err = .unknownForecastCode → s.config.forecastEn = true
  labelled     : s.label.valid = true → s.phase = .done ∧ s.config.forecastEn = true
  forecast     : s.phase = .done → s.config.forecastEn = true →
    s.label.valid = true ∧ tableLookup s.table (iconCode s) = some s.label.label
  unknown      : s.err = .unknownForecastCode → tableLookup s.table (iconCode s) = none

theorem inv_iff (s : State) : Inv s ↔ Static s ∧ Staged s.stage s ∧ PhaseFacts s := by
  constructor
  · intro h
    refine ⟨{ h with }, ?_, { h with shape := fun hp => h.shape (.inl hp) }⟩
    exact {
      sentWake := fun hn => h.sentWake (by rw [requested_iff]; omega)
      sentAll := fun hn => h.sentAll ((requested_iff s).2 hn)
      acked := fun hn => h.acked ((acked_iff s).2 hn)
      complete := fun hn => h.complete ((complete_iff s).2 hn)
      shape := fun hn => h.shape (.inr ((validated_iff s).2 hn))
      residue := fun hn => h.residue ((validated_iff s).2 hn)
      unmeasured := fun hn => h.unmeasured (by rw [measured_iff]; omega)
      measured := fun hn => h.measured ((measured_iff s).2 hn) }
  · rintro ⟨hstatic, hstaged, hphase⟩
    exact { hstatic, hphase with
      sentWake := fun hn => hstaged.sentWake (by rw [requested_iff] at hn; omega)
      sentAll := fun hn => hstaged.sentAll ((requested_iff s).1 hn)
      acked := fun hn => hstaged.acked ((acked_iff s).1 hn)
      complete := fun hn => hstaged.complete ((complete_iff s).1 hn)
      shape := fun h => h.elim hphase.shape fun hn => hstaged.shape ((validated_iff s).1 hn)
      residue := fun hn => hstaged.residue ((validated_iff s).1 hn)
      unmeasured := fun hn => hstaged.unmeasured (by rw [measured_iff] at hn; omega)
      measured := fun hn => hstaged.measured ((measured_iff s).1 hn) }

theorem Inv.parts {s : State} (h : Inv s) {p : Phase} (hp : s.phase = p) {n : Nat} (hn : stageOf p s.err = n) :
    Static s ∧ Staged n s ∧ PhaseFacts s := by
  subst hp hn
  exact (inv_iff s).1 h

theorem Inv.of_parts {s : State} {n : Nat} (hn : s.stage = n) (hstatic : Static s) (hstaged : Staged n s)
    (hphase : PhaseFacts s) : Inv s := by
  subst hn
  exact (inv_iff s).2 ⟨hstatic, hstaged, hphase⟩

/-! ### What a phase says -/

theorem PhaseFacts.noError {s : State} (h : PhaseFacts s) (hf : s.phase ≠ .failed) : s.err = .noError :=
  by_contra fun he => hf (h.error.1 he)

theorem PhaseFacts.unlabelled {s : State} (h : PhaseFacts s) (hd : s.phase ≠ .done) : s.label.valid = false :=
  Bool.eq_false_iff.2 fun hv => hd (h.labelled hv).1

/-- What IDLE says. -/
theorem PhaseFacts.idle {s : State} (hp : s.phase = .idle) (link : s.linkOpen = false) (err : s.err = .noError)
    (attempt : s.attempt = 0) (framelen : s.framelen = 0) (label : s.label.valid = false) : PhaseFacts s where
  link := by rw [link, hp]; rfl
  error := by simp [err, hp]
  attemptIdle _ := attempt
  attemptProbe h := by simp [hp] at h
  attemptRun h := absurd hp h
  attemptOut he := by simp [err] at he
  unread _ := framelen
  short he := by simp [err] at he
  shape h := by simp [hp] at h
  mapping h := by simp [hp, err] at h
  labelled hv := by simp [label] at hv
  forecast h := by simp [hp] at h
  unknown he := by simp [err] at he

/-- What a phase of a run that has not ended says: a clause that names another phase or an error does not apply. -/
theorem PhaseFacts.running {s : State} (hi : s.phase ≠ .idle) (hd : s.phase ≠ .done) (hf : s.phase ≠ .failed)
    (link : s.linkOpen = s.phase.linkPhase) (err : s.err = .noError)
    (probe : s.phase = .hsProbe → s.attempt.toNat ≤ 2) (attempt : s.phase ≠ .hsProbe → 1 ≤ s.attempt.toNat)
    (unread : s.phase.beforeRead = true → s.framelen = 0)
    (shape : s.phase = .decCrc → shapeMatches s.frameBytes = true)
    (mapping : s.phase = .fcMap → s.config.forecastEn = true) (label : s.label.valid = false) : PhaseFacts s where
  link := link
  error := by simp [err, hf]
  attemptIdle hp := absurd hp hi
  attemptProbe := probe
  attemptRun _ := attempt
  attemptOut he := by simp [err] at he
  unread := unread
  short he := by simp [err] at he
  shape := shape
  mapping h := h.elim mapping fun he => by simp [err] at he
  labelled hv := by simp [label] at hv
  forecast hp := absurd hp hd
  unknown he := by simp [err] at he

/-- What DONE says: the label, where FORECAST_EN = 1. -/
theorem PhaseFacts.done {s : State} (hp : s.phase = .done) (link : s.linkOpen = false) (err : s.err = .noError)
    (attempt : 1 ≤ s.attempt.toNat) (labelled : s.label.valid = true → s.config.forecastEn = true)
    (forecast : s.config.forecastEn = true →
      s.label.valid = true ∧ tableLookup s.table (iconCode s) = some s.label.label) : PhaseFacts s where
  link := by rw [link, hp]; rfl
  error := by simp [err, hp]
  attemptIdle h := by simp [hp] at h
  attemptProbe h := by simp [hp] at h
  attemptRun _ _ := attempt
  attemptOut he := by simp [err] at he
  unread h := by simp [hp, Phase.beforeRead] at h
  short he := by simp [err] at he
  shape h := by simp [hp] at h
  mapping h := by simp [hp, err] at h
  labelled hv := ⟨hp, labelled hv⟩
  forecast _ := forecast
  unknown he := by simp [err] at he

/-- What FAILED says, by the error. -/
theorem PhaseFacts.failed {s : State} (hp : s.phase = .failed) (link : s.linkOpen = false) (err : s.err ≠ .noError)
    (attempt : 1 ≤ s.attempt.toNat) (out : s.err = .stationNotReady → s.attempt = 3)
    (short : s.err = .incompleteData → s.framelen.toNat < 100)
    (unknown : s.err = .unknownForecastCode →
      s.config.forecastEn = true ∧ tableLookup s.table (iconCode s) = none)
    (label : s.label.valid = false) : PhaseFacts s where
  link := by rw [link, hp]; rfl
  error := by simp [err, hp]
  attemptIdle h := by simp [hp] at h
  attemptProbe h := by simp [hp] at h
  attemptRun _ _ := attempt
  attemptOut := out
  unread h := by simp [hp, Phase.beforeRead] at h
  short := short
  shape h := by simp [hp] at h
  mapping h := h.elim (fun h => by simp [hp] at h) fun he => (unknown he).1
  labelled hv := by simp [label] at hv
  forecast h := by simp [hp] at h
  unknown he := (unknown he).2

/-- The error entry, from a phase as far as the one that raises the error. -/
theorem Inv.raised {s : State} {e : ErrCode} (h : Inv s) (he : e ≠ .noError) (hstage : s.stage = stageOf .failed e)
    (hi : s.phase ≠ .idle) (hpr : s.phase ≠ .hsProbe) (hd : s.phase ≠ .done)
    (out : e = .stationNotReady → s.attempt = 3) (short : e = .incompleteData → s.framelen.toNat < 100)
    (unknown : e = .unknownForecastCode → s.config.forecastEn = true ∧ tableLookup s.table (iconCode s) = none) :
    Inv { s with linkOpen := false, err := e, phase := .failed } := by
  obtain ⟨hstatic, hstaged, hphase⟩ := (inv_iff s).1 h
  exact .of_parts hstage.symm { hstatic with } { hstaged with }
    (.failed rfl rfl he (hphase.attemptRun hi hpr) out short unknown (hphase.unlabelled hd))

/-! ### FRAME in a complete run -/

theorem lookup_frameBytes {s : State} {a : Nat} {v : Byte} (ha : a < s.frameBytes.length)
    (h : Memory.lookup s.frame a = some v) : s.frameBytes[a] = v := by
  simp only [State.frameBytes, List.getElem_map, List.getElem_range, h, Option.getD_some]

/-- With FRAMELEN at 100 every byte has a value, and `frameBytes` lists them. -/
theorem Static.readBytes_frame {s : State} (h : Static s) (hl : s.framelen = 100) :
    readBytes s 0 100 = .ok s.frameBytes := by
  have hlen : s.frameBytes.length = 100 := by simp [State.frameBytes]
  have hl' : s.framelen.toNat = 100 := by rw [hl]; rfl
  refine (readBytes_ok_iff s 100 0 _).2 ⟨hlen, fun k hk => ?_⟩
  obtain ⟨v, hv⟩ := Option.isSome_iff_exists.1 (h.frameFull k (by omega))
  rw [lookup_frameBytes hk hv, Nat.zero_add]
  exact (readByte_ok_iff s k v).2 ⟨by omega, by omega, hv⟩

/-! ### The measured fields are clean -/

/-- A field with a sentinel `k`, by its raw value `n`. -/
theorem sentinel_clean {n k : Nat} (hn : n < 65536) :
    ((if n = k then XReg.absent else present n).valid = false → (if n = k then XReg.absent else present n).raw = 0) ∧
    ((if n = k then XReg.absent else present n).valid = true →
      (if n = k then XReg.absent else present n).raw.toNat = n ∧ n ≠ k) := by
  split
  · exact ⟨fun _ => rfl, nofun⟩
  · next hne => exact ⟨nofun, fun _ => ⟨Nat.mod_eq_of_lt hn, hne⟩⟩

theorem half_ne_of_toNat_ne {v w : Half} (h : v.toNat ≠ w.toNat) : v ≠ w := fun e => h (congrArg _ e)

theorem fieldsOf_clean (p : List Byte) (c : ConfigReg) : (fieldsOf p c).Clean where
  pressure := by
    obtain ⟨h0, h1⟩ := sentinel_clean (k := 0) (payloadRaw_lt p c .pressure)
    refine ⟨h0, fun hv => half_ne_of_toNat_ne ?_⟩
    obtain ⟨hr, hne⟩ := h1 hv
    exact hr.trans_ne hne
  temperature := by
    obtain ⟨h0, h1⟩ := sentinel_clean (k := 32767) (payloadRaw_lt p c .temperature)
    refine ⟨h0, fun hv => half_ne_of_toNat_ne ?_⟩
    obtain ⟨hr, hne⟩ := h1 hv
    exact hr.trans_ne hne
  windSpeed := by
    obtain ⟨h0, h1⟩ := sentinel_clean (k := 255) (payloadRaw_lt p c .windSpeed)
    refine ⟨h0, fun hv => ?_⟩
    obtain ⟨hr, hne⟩ := h1 hv
    have hlt : payloadRaw p c .windSpeed < 256 := payloadByte_lt p _
    exact hr.trans_le (by omega)
  windBearing := by
    simp only [fieldsOf]
    split
    · exact ⟨fun _ => rfl, nofun⟩
    · split
      · exact ⟨fun _ => rfl, nofun⟩
      · split
        · exact ⟨nofun, fun _ => by decide⟩
        · next hne =>
          exact ⟨nofun, fun _ => ofNat_half_ne (payloadRaw_lt p c .windBearing) (by decide) hne⟩
  humidity := by
    obtain ⟨h0, h1⟩ := sentinel_clean (k := 255) (payloadRaw_lt p c .humidity)
    refine ⟨h0, fun hv => ?_⟩
    obtain ⟨hr, hne⟩ := h1 hv
    have hlt : payloadRaw p c .humidity < 256 := payloadByte_lt p _
    exact hr.trans_le (by omega)
  icon := by
    refine ⟨nofun, fun _ => ?_⟩
    have hlt : payloadRaw p c .icon < 256 := payloadByte_lt p _
    have hr : (fieldsOf p c).icon.raw.toNat = payloadRaw p c .icon := Nat.mod_eq_of_lt (payloadRaw_lt p c .icon)
    omega

theorem allAbsent_clean : XFile.allAbsent.Clean := by
  constructor <;> exact ⟨fun _ => rfl, nofun⟩

/-! ### The reset state and the host's inputs -/

theorem inv_applyReset {s : State} (hts : tableLookup s.table 8 = some .sunny)
    (htr : crcWellFormed s.params.crcStep = true) (hcodes : s.params.errCodes.wellFormed = true) :
    Inv (applyReset s) :=
  .of_parts (n := 0) rfl
    { noIssue := rfl, frameWf := rfl, frameLen := Nat.zero_le _, frameFull := fun a ha => absurd ha (Nat.not_lt_zero a)
      configWf := rfl, tableSunny := hts, transform := htr, codes := hcodes, acklen := Nat.zero_le _
      clean := allAbsent_clean }
    { sentWake := fun _ => rfl, sentAll := nofun, acked := nofun, complete := nofun, shape := nofun
      residue := nofun, unmeasured := fun _ => rfl, measured := nofun }
    (.idle rfl rfl rfl rfl rfl rfl)

/-- Settles O2: the reset state is a reset of itself. -/
theorem resetStateMeetsTheInvariant : Obligations.ResetStateMeetsTheInvariant :=
  inv_applyReset (s := State.reset) rfl crcWellFormed_default (by decide)

theorem Inv.popHost {s : State} (h : Inv s) : Inv s.popHost := { h with }

theorem Inv.setCrc {s : State} (h : Inv s) (c : Half) : Inv (s.setCrc c) := { h with }

theorem Inv.writeConfig {s : State} (h : Inv s) (hp : s.phase = .idle) {c : ConfigReg} (hc : c.wellFormed = true) :
    Inv { s with config := c } := by
  obtain ⟨hstatic, hstaged, hphase⟩ := h.parts (n := 0) hp rfl
  have herr : s.err = .noError := hphase.noError (by simp [hp])
  have hlink : s.linkOpen = false := by rw [hphase.link, hp]; rfl
  exact .of_parts (n := 0) (by rw [State.stage, hp]; rfl) { hstatic with configWf := hc } { hstaged with measured := nofun }
    (.idle hp hlink herr (hphase.attemptIdle hp) (hphase.unread (by rw [hp]; rfl)) (hphase.unlabelled (by simp [hp])))

end Sys2Proof.Machine
end

section
/-! PROOFS. Every step keeps the invariant: one lemma for each operation of the sequencer, and what follows for a run. -/

namespace Sys2Proof.Machine

/-! ### START and the handshake -/

theorem Inv.start {s t : State} (h : Inv s) (hp : s.phase = .idle) (ht : exec .start s = .next t) : Inv t := by
  obtain ⟨hstatic, -, -⟩ := (inv_iff s).1 h
  cases (exec_start_idle hp).symm.trans ht
  exact .of_parts (n := 0) rfl
    { hstatic with
      frameLen := Nat.zero_le _, frameFull := fun a ha => absurd ha (Nat.not_lt_zero a), clean := allAbsent_clean }
    { sentWake := fun _ => rfl, sentAll := nofun, acked := nofun, complete := nofun, shape := nofun, residue := nofun
      unmeasured := fun _ => rfl, measured := nofun }
    (.running nofun nofun nofun rfl rfl (fun _ => Nat.zero_le _) (fun h => absurd rfl h) (fun _ => rfl) nofun nofun rfl)

theorem Inv.hsProbe {s t : State} (h : Inv s) (hp : s.phase = .hsProbe) (ht : exec .hsProbe s = .next t) : Inv t := by
  obtain ⟨hstatic, hstaged, hphase⟩ := h.parts (n := 0) hp rfl
  obtain ⟨hl, rfl⟩ := execHsProbe_next ht
  have hcount := nextAttempt_toNat (hphase.attemptProbe hp)
  refine .of_parts (n := 0) rfl { hstatic with } 
    { hstaged with sentWake := fun _ => ?_, sentAll := nofun, measured := nofun } ?_
  · show s.txlog ++ wakeBytes = List.replicate (nextAttempt s).toNat 0x0A#8
    rw [hcount, List.replicate_succ', hstaged.sentWake (by decide)]
    rfl
  · exact .running nofun nofun nofun hl (hphase.noError (by simp [hp])) nofun
      (fun _ => by show 1 ≤ (nextAttempt s).toNat; omega) (fun _ => hphase.unread (by rw [hp]; rfl)) nofun nofun
      (hphase.unlabelled (by simp [hp]))

theorem Inv.hsRdack {s t : State} (h : Inv s) (hp : s.phase = .hsRdack) (ht : exec .hsRdack s = .next t) : Inv t := by
  obtain ⟨hstatic, hstaged, hphase⟩ := h.parts (n := 0) hp rfl
  obtain ⟨r, hl, hr, ht, -, -⟩ := execHsRdack_next ht
  have hlen : r.length ≤ 2 := by rw [hr, List.length_take]; omega
  rw [ht]
  refine .of_parts (n := 0) rfl { hstatic with acklen := ?_ } { hstaged with acked := nofun } ?_
  · show (BitVec.ofNat 2 r.length).toNat ≤ 2
    rw [BitVec.toNat_ofNat]
    omega
  · exact .running nofun nofun nofun hl (hphase.noError (by simp [hp])) nofun
      (fun _ => hphase.attemptRun (by simp [hp]) (by simp [hp])) (fun _ => hphase.unread (by rw [hp]; rfl)) nofun nofun
      (hphase.unlabelled (by simp [hp]))

theorem Inv.hsCmp {s t : State} (h : Inv s) (hp : s.phase = .hsCmp) (ht : exec .hsCmp s = .next t) : Inv t := by
  obtain ⟨hstatic, hstaged, hphase⟩ := h.parts (n := 0) hp rfl
  have hlink : s.linkOpen = true := by rw [hphase.link, hp]; rfl
  have herr := hphase.noError (by simp [hp])
  have hattempt := hphase.attemptRun (by simp [hp]) (by simp [hp])
  have hunread := hphase.unread (by rw [hp]; rfl)
  have hlabel := hphase.unlabelled (by simp [hp])
  obtain ⟨hm, rfl⟩ | ⟨-, ha, rfl⟩ | ⟨-, ha, rfl⟩ := execHsCmp_next ht
  · exact .of_parts (n := 1) rfl { hstatic with }
      { sentWake := fun _ => hstaged.sentWake (by decide), sentAll := nofun, acked := fun _ => hm, complete := nofun
        shape := nofun, residue := nofun, unmeasured := fun _ => hstaged.unmeasured (by decide), measured := nofun }
      (.running nofun nofun nofun hlink herr nofun (fun _ => hattempt) (fun _ => hunread) nofun nofun hlabel)
  · exact .of_parts (n := 0) rfl { hstatic with } { hstaged with }
      (.running nofun nofun nofun hlink herr (fun _ => by show s.attempt.toNat ≤ 2; omega) (fun _ => hattempt)
        (fun _ => hunread) nofun nofun hlabel)
  · refine h.raised nofun (by rw [State.stage, hp]; rfl) (by simp [hp]) (by simp [hp]) (by simp [hp]) (fun _ => ?_)
      nofun nofun
    exact BitVec.eq_of_toNat_eq (by show s.attempt.toNat = 3; omega)

/-! ### The acquisition -/

theorem Inv.acqReq {s t : State} (h : Inv s) (hp : s.phase = .acqReq) (ht : exec .acqReq s = .next t) : Inv t := by
  obtain ⟨hstatic, hstaged, hphase⟩ := h.parts (n := 1) hp rfl
  obtain ⟨hl, rfl⟩ := execAcqReq_next ht
  refine .of_parts (n := 2) rfl { hstatic with }
    { sentWake := nofun, sentAll := fun _ => ?_, acked := fun _ => hstaged.acked (by decide), complete := nofun
      shape := nofun, residue := nofun, unmeasured := fun _ => hstaged.unmeasured (by decide), measured := nofun } ?_
  · exact congrArg (· ++ loop1Bytes) (hstaged.sentWake (by decide))
  · exact .running nofun nofun nofun hl (hphase.noError (by simp [hp])) nofun
      (fun _ => hphase.attemptRun (by simp [hp]) (by simp [hp])) (fun _ => hphase.unread (by rw [hp]; rfl)) nofun nofun
      (hphase.unlabelled (by simp [hp]))

/-- FRAME and FRAMELEN after a read of at most 100 bytes. -/
theorem Static.setFrame {s : State} (h : Static s) {r : List Byte} (hr : r.length ≤ 100) :
    Static (s.setFrame r) := by
  refine { h with
    frameWf := Memory.writeFrom_wf r s.frame 0 (by rw [Config.frameLen]; omega) h.frameWf
    frameLen := (ofNat_framelen_toNat hr).trans_le hr
    frameFull := fun a ha => ?_ }
  rw [setFrame_framelen, ofNat_framelen_toNat hr] at ha
  rw [setFrame_frame, Memory.lookup_writeFrom, if_pos (by omega), Nat.sub_zero, List.getElem?_eq_getElem ha]
  rfl

theorem Inv.acqRead {s t : State} (h : Inv s) (hp : s.phase = .acqRead) (ht : exec .acqRead s = .next t) : Inv t := by
  obtain ⟨hstatic, hstaged, hphase⟩ := h.parts (n := 2) hp rfl
  obtain ⟨r, hl, hr, ht⟩ := execAcqRead_next ht
  have hlen : r.length ≤ 100 := by rw [hr, List.length_take]; omega
  have hread := hstatic.setFrame hlen
  rw [ht]
  exact .of_parts (n := 2) rfl { hread with }
    { hstaged with complete := nofun, shape := nofun, residue := nofun, measured := nofun }
    (.running nofun nofun nofun hl (hphase.noError (by simp [hp])) nofun
      (fun _ => hphase.attemptRun (by simp [hp]) (by simp [hp])) nofun nofun nofun (hphase.unlabelled (by simp [hp])))

theorem Inv.acqClose {s t : State} (h : Inv s) (hp : s.phase = .acqClose) (ht : exec .acqClose s = .next t) :
    Inv t := by
  obtain ⟨hstatic, hstaged, hphase⟩ := h.parts (n := 2) hp rfl
  cases (exec_acqClose s).symm.trans ht
  exact .of_parts (n := 2) rfl { hstatic with } { hstaged with }
    (.running nofun nofun nofun rfl (hphase.noError (by simp [hp])) nofun
      (fun _ => hphase.attemptRun (by simp [hp]) (by simp [hp])) nofun nofun nofun (hphase.unlabelled (by simp [hp])))

theorem Inv.acqLen {s t : State} (h : Inv s) (hp : s.phase = .acqLen) (ht : exec .acqLen s = .next t) : Inv t := by
  obtain ⟨hstatic, hstaged, hphase⟩ := h.parts (n := 2) hp rfl
  obtain ⟨hshort, rfl⟩ | ⟨hfull, rfl⟩ := execAcqLen_next ht
  · exact h.raised nofun (by rw [State.stage, hp]; rfl) (by simp [hp]) (by simp [hp]) (by simp [hp]) nofun
      (fun _ => hshort) nofun
  · have hlen : s.framelen = 100 := BitVec.eq_of_toNat_eq (Nat.le_antisymm hstatic.frameLen hfull)
    exact .of_parts (n := 3) rfl { hstatic with }
      { sentWake := nofun, sentAll := fun _ => hstaged.sentAll (by decide)
        acked := fun _ => hstaged.acked (by decide), complete := fun _ => hlen, shape := nofun, residue := nofun
        unmeasured := fun _ => hstaged.unmeasured (by decide), measured := nofun }
      (.running nofun nofun nofun (by rw [hphase.link, hp]; rfl) (hphase.noError (by simp [hp])) nofun
        (fun _ => hphase.attemptRun (by simp [hp]) (by simp [hp])) nofun nofun nofun
        (hphase.unlabelled (by simp [hp])))

/-! ### The decoder -/

theorem Inv.decEnv {s t : State} (h : Inv s) (hp : s.phase = .decEnv) (ht : exec .decEnv s = .next t) : Inv t := by
  obtain ⟨hstatic, hstaged, hphase⟩ := h.parts (n := 3) hp rfl
  have hframe := hstatic.readBytes_frame (hstaged.complete (by decide))
  obtain ⟨hshape, rfl⟩ | ⟨-, rfl⟩ := execDecEnv_next ht
  · have hmatch : shapeMatches s.frameBytes = true := Except.ok.inj ((shapeOf_of_frame hframe).symm.trans hshape)
    exact .of_parts (n := 3) rfl { hstatic with } { hstaged with }
      (.running nofun nofun nofun (by rw [hphase.link, hp]; rfl) (hphase.noError (by simp [hp])) nofun
        (fun _ => hphase.attemptRun (by simp [hp]) (by simp [hp])) nofun (fun _ => hmatch) nofun
        (hphase.unlabelled (by simp [hp])))
  · exact h.raised nofun (by rw [State.stage, hp]; rfl) (by simp [hp]) (by simp [hp]) (by simp [hp]) nofun nofun nofun

theorem Inv.decCrc {s t : State} (h : Inv s) (hp : s.phase = .decCrc) (ht : exec .decCrc s = .next t) : Inv t := by
  obtain ⟨hstatic, hstaged, hphase⟩ := h.parts (n := 3) hp rfl
  have hframe := hstatic.readBytes_frame (hstaged.complete (by decide))
  obtain ⟨p, hpay, ⟨hz, rfl⟩ | ⟨-, rfl⟩⟩ := execDecCrc_next ht
  · have hpayload : s.frameBytes.drop 1 = p := Except.ok.inj ((readBytes_payload hframe).symm.trans hpay)
    exact .of_parts (n := 4) rfl { hstatic with }
      { sentWake := nofun, sentAll := fun _ => hstaged.sentAll (by decide)
        acked := fun _ => hstaged.acked (by decide), complete := fun _ => hstaged.complete (by decide)
        shape := fun _ => hphase.shape hp, residue := fun _ => hpayload ▸ hz
        unmeasured := fun _ => hstaged.unmeasured (by decide), measured := nofun }
      (.running nofun nofun nofun (by exact hphase.link.trans (by rw [hp]; rfl)) (hphase.noError (by simp [hp])) nofun
        (fun _ => hphase.attemptRun (by simp [hp]) (by simp [hp])) nofun nofun nofun
        (hphase.unlabelled (by simp [hp])))
  · exact (h.setCrc _).raised nofun (by exact congrArg (stageOf · s.err) hp) (by simp [hp]) (by simp [hp])
      (by simp [hp]) nofun nofun nofun

theorem Inv.decFx {s t : State} (h : Inv s) (hp : s.phase = .decFx) (ht : exec .decFx s = .next t) : Inv t := by
  obtain ⟨hstatic, hstaged, hphase⟩ := h.parts (n := 4) hp rfl
  have hframe := hstatic.readBytes_frame (hstaged.complete (by decide))
  cases (exec_decFx_frame hframe hstatic.configWf).symm.trans ht
  have hlink : s.linkOpen = false := by rw [hphase.link, hp]; rfl
  have herr := hphase.noError (by simp [hp])
  have hattempt := hphase.attemptRun (by simp [hp]) (by simp [hp])
  have hlabel := hphase.unlabelled (by simp [hp])
  have hstage : stageOf (if s.config.forecastEn then .fcMap else .done) s.err = 5 := by split <;> rfl
  refine .of_parts (n := 5) hstage { hstatic with clean := fieldsOf_clean _ _ }
    { sentWake := nofun, sentAll := fun _ => hstaged.sentAll (by decide)
      acked := fun _ => hstaged.acked (by decide), complete := fun _ => hstaged.complete (by decide)
      shape := fun _ => hstaged.shape (by decide), residue := fun _ => hstaged.residue (by decide)
      unmeasured := nofun, measured := fun _ => rfl } ?_
  cases hf : s.config.forecastEn with
  | true => exact .running nofun nofun nofun hlink herr nofun (fun _ => hattempt) nofun nofun (fun _ => hf) hlabel
  | false =>
    exact .done rfl hlink herr hattempt (fun hv => by simp [hlabel] at hv) (fun hf' => by simp [hf] at hf')

/-! ### FC.MAP -/

theorem Inv.fcMap {s t : State} (h : Inv s) (hp : s.phase = .fcMap) (ht : exec .fcMap s = .next t) : Inv t := by
  obtain ⟨hstatic, hstaged, hphase⟩ := h.parts (n := 5) hp rfl
  have hf := hphase.mapping (.inl hp)
  obtain ⟨l, hlookup, rfl⟩ | ⟨hlookup, rfl⟩ := execFcMap_next ht
  · have hlink : s.linkOpen = false := by rw [hphase.link, hp]; rfl
    have herr := hphase.noError (by simp [hp])
    have hattempt := hphase.attemptRun (by simp [hp]) (by simp [hp])
    exact .of_parts (n := 5) rfl { hstatic with } { hstaged with }
      (.done rfl hlink herr hattempt (fun _ => hf) (fun _ => ⟨rfl, hlookup⟩))
  · exact h.raised nofun (by rw [State.stage, hp]; rfl) (by simp [hp]) (by simp [hp]) (by simp [hp]) nofun nofun
      (fun _ => ⟨hf, hlookup⟩)

/-! ### A step -/

theorem Inv.operation {s t : State} (h : Inv s) {p : Phase} (hp : s.phase = p) (ht : exec p.operation s = .next t) :
    Inv t := by
  cases p with
  | idle => exact h.start hp ht
  | hsProbe => exact h.hsProbe hp ht
  | hsRdack => exact h.hsRdack hp ht
  | hsCmp => exact h.hsCmp hp ht
  | acqReq => exact h.acqReq hp ht
  | acqRead => exact h.acqRead hp ht
  | acqClose => exact h.acqClose hp ht
  | acqLen => exact h.acqLen hp ht
  | decEnv => exact h.decEnv hp ht
  | decCrc => exact h.decCrc hp ht
  | decFx => exact h.decFx hp ht
  | fcMap => exact h.fcMap hp ht
  | done => cases ht; exact h
  | failed => cases ht; exact h

/-- Settles O55: whatever a step runs is the operation of PHASE, START from IDLE, a CONFIG write or a reset. -/
theorem everyStepKeepsTheInvariant : Obligations.EveryStepKeepsTheInvariant := by
  intro s t h hs
  obtain rfl | ⟨-, -, ht⟩ | ⟨hp, ht⟩ | ⟨hp, c, -, -, hc, rfl⟩ | ⟨-, -, rfl⟩ := step_cases h.noIssue hs
  · exact h.popHost
  · exact h.popHost.operation rfl ht
  · exact h.popHost.start hp ht
  · exact h.popHost.writeConfig hp hc
  · exact inv_applyReset h.tableSunny h.transform h.codes

end Sys2Proof.Machine
end

section
/-! PROOFS. Progress and the end of a run (40_pipeline_control.md R71, R72; 70_reset_and_hazards.md R179). -/

namespace Sys2Proof.Machine

/-! ### The transition table -/

theorem exec_hsCmp_phase {s t : State} (h : exec .hsCmp s = .next t) :
    t.phase = (if s.acklen = 2 ∧ s.ackbuf0 = 0x0A ∧ s.ackbuf1 = 0x0D then .acqReq
      else if s.attempt = 3 then .failed else .hsProbe) := by
  have hthree : s.attempt = 3 ↔ ¬ s.attempt.toNat < 3 := by
    rw [← BitVec.toNat_inj]
    show s.attempt.toNat = 3 ↔ _
    omega
  obtain ⟨hm, rfl⟩ | ⟨hm, ha, rfl⟩ | ⟨hm, ha, rfl⟩ := execHsCmp_next h
  · rw [if_pos ((ackMatches_iff s).1 hm)]
  · rw [if_neg ((ackMatches_false_iff s).1 hm), if_neg (mt hthree.1 (not_not.2 ha))]
  · rw [if_neg ((ackMatches_false_iff s).1 hm), if_pos (hthree.2 ha)]

theorem exec_acqLen_phase {s t : State} (h : exec .acqLen s = .next t) :
    t.phase = (if s.framelen.toNat < 100 then .failed else .decEnv) := by
  obtain ⟨hl, rfl⟩ | ⟨hl, rfl⟩ := execAcqLen_next h
  · rw [if_pos hl]
  · rw [if_neg (Nat.not_lt.2 hl)]

theorem exec_decEnv_phase {s t : State} {f : List Byte} (h : exec .decEnv s = .next t)
    (hf : readBytes s 0 100 = .ok f) : t.phase = (if shapeMatches f then .decCrc else .failed) := by
  have hshape := shapeOf_of_frame hf
  cases hm : shapeMatches f with
  | true => cases (exec_decEnv_match (hm ▸ hshape)).symm.trans h; rfl
  | false => cases (exec_decEnv_mismatch (hm ▸ hshape)).symm.trans h; rfl

theorem exec_decCrc_phase {s t : State} {f : List Byte} (h : exec .decCrc s = .next t)
    (hf : readBytes s 0 100 = .ok f) :
    t.phase = (if crc16 s.params.crcStep (f.drop 1) 0 = 0 then .decFx else .failed) := by
  by_cases hz : crc16 s.params.crcStep (f.drop 1) 0 = 0
  · cases (exec_decCrc_zero hf hz).symm.trans h
    rw [if_pos hz]
  · cases (exec_decCrc_nonzero hf hz).symm.trans h
    rw [if_neg hz]

theorem exec_fcMap_phase {s t : State} (h : exec .fcMap s = .next t) :
    t.phase = (if (tableLookup s.table (iconCode s)).isSome then .done else .failed) := by
  obtain ⟨l, hl, rfl⟩ | ⟨hl, rfl⟩ := execFcMap_next h <;> rw [hl] <;> rfl

/-- Settles O13: each row is the phase that the operation's next states have. -/
theorem phaseFollowsTheTransitionTable : Obligations.PhaseFollowsTheTransitionTable := by
  intro s t hi hq hs
  have hop (hp : s.phase ≠ .idle) : exec s.phase.operation s.popHost = .next t :=
    (step_quiet_busy hi hq hp).symm.trans hs
  have hread {f : List Byte} (hf : readBytes s 0 100 = .ok f) : readBytes s.popHost 0 100 = .ok f :=
    (readBytes_congr (readByte_congr rfl rfl) 100 0).trans hf
  cases hp : s.phase <;> rw [hp] at hop <;> simp only
  case idle => cases (step_quiet_idle hi hq hp).symm.trans hs; exact hp
  case hsProbe => obtain ⟨-, rfl⟩ := execHsProbe_next (hop nofun); rfl
  case hsRdack => obtain ⟨r, -, -, ht, -⟩ := execHsRdack_next (hop nofun); rw [ht]
  case hsCmp => exact exec_hsCmp_phase (s := s.popHost) (hop nofun)
  case acqReq => obtain ⟨-, rfl⟩ := execAcqReq_next (hop nofun); rfl
  case acqRead => obtain ⟨r, -, -, ht⟩ := execAcqRead_next (hop nofun); rw [ht]
  case acqClose => cases hop nofun; rfl
  case acqLen => exact exec_acqLen_phase (s := s.popHost) (hop nofun)
  case decEnv => exact fun f hf => exec_decEnv_phase (hop nofun) (hread hf)
  case decCrc => exact fun f hf => exec_decCrc_phase (s := s.popHost) (hop nofun) (hread hf)
  case decFx => obtain ⟨x, -, rfl⟩ := execDecFx_next (hop nofun); rfl
  case fcMap => exact exec_fcMap_phase (s := s.popHost) (hop nofun)
  case done => cases hop nofun; exact hp
  case failed => cases hop nofun; exact hp

/-! ### Progress -/

/-- In a state of the invariant the operation of PHASE completes: the link is open where it sends or reads, and FRAME is
whole where it is read. -/
theorem Inv.operation_completes {s : State} (h : Inv s) (hi : s.phase ≠ .idle) :
    ∃ t, exec s.phase.operation s = .next t := by
  obtain ⟨hstatic, hstaged, hphase⟩ := (inv_iff s).1 h
  have hlink := hphase.link
  have hframe (hc : 3 ≤ s.stage) := hstatic.readBytes_frame (hstaged.complete hc)
  rw [State.stage] at hframe
  cases hp : s.phase <;> rw [hp] at hlink hframe
  case idle => exact absurd hp hi
  case hsProbe => exact ⟨_, exec_hsProbe_open hlink⟩
  case hsRdack => exact ⟨_, exec_hsRdack_open hlink⟩
  case hsCmp => exact ⟨_, rfl⟩
  case acqReq => exact ⟨_, exec_acqReq_open hlink⟩
  case acqRead => exact ⟨_, exec_acqRead_open hlink⟩
  case acqClose => exact ⟨_, exec_acqClose s⟩
  case acqLen => exact ⟨_, rfl⟩
  case decEnv =>
    have hshape := shapeOf_of_frame (hframe (by simp [stageOf]))
    cases hm : shapeMatches s.frameBytes with
    | true => exact ⟨_, exec_decEnv_match (hm ▸ hshape)⟩
    | false => exact ⟨_, exec_decEnv_mismatch (hm ▸ hshape)⟩
  case decCrc =>
    obtain ⟨t, ht, -⟩ := checksumTestDecidesByZeroResidue s _ (hframe (by simp [stageOf]))
    exact ⟨t, ht⟩
  case decFx => exact ⟨_, exec_decFx_frame (hframe (by simp [stageOf])) hstatic.configWf⟩
  case fcMap => exact ⟨_, rfl⟩
  case done => exact ⟨s, exec_haltOk s⟩
  case failed => exact ⟨s, exec_haltErr s⟩

theorem Inv.sequencerStep_completes {s : State} (h : Inv s) : ∃ t, sequencerStep s = .next t := by
  by_cases hp : s.phase = .idle
  · exact ⟨s, sequencerStep_idle hp⟩
  · rw [sequencerStep_busy hp]
    exact h.operation_completes hp

/-- Settles O56: the sequencer's step completes, and of the host's commands only the write of an ill-formed layout is
refused. -/
theorem noReachableStateIsStuck : Obligations.NoReachableStateIsStuck := by
  intro s h hacc
  cases hh : s.host with
  | nil =>
    rw [step_alone h.noIssue hh]
    exact h.sequencerStep_completes
  | cons c rest =>
    rw [step_command h.noIssue hh]
    cases c with
    | quiet => exact h.popHost.sequencerStep_completes
    | reset => exact ⟨_, rfl⟩
    | start =>
      rw [hostStep_start]
      by_cases hp : s.phase = .idle
      · exact ⟨_, exec_start_idle (s := s.popHost) hp⟩
      · exact ⟨_, exec_start_busy (s := s.popHost) hp⟩
    | writeConfig c =>
      by_cases hp : s.phase = .idle
      · exact ⟨_, hostStep_writeConfig_idle (s := s.popHost) hp (hacc _ _ hh)⟩
      · exact ⟨_, hostStep_writeConfig_ignored (s := s.popHost) hp⟩
    | writeStatus v => exact ⟨_, rfl⟩

/-! ### The length of a run -/

/-- How many steps a run has at most before it, from each phase (R72). -/
def stepsLeft (s : State) : Nat :=
  match s.phase with
  | .idle | .done | .failed => 0
  | .hsProbe => 17 - 3 * s.attempt.toNat
  | .hsRdack => 19 - 3 * s.attempt.toNat
  | .hsCmp => 18 - 3 * s.attempt.toNat
  | .acqReq => 8
  | .acqRead => 7
  | .acqClose => 6
  | .acqLen => 5
  | .decEnv => 4
  | .decCrc => 3
  | .decFx => 2
  | .fcMap => 1

theorem Inv.stepsLeft_le {s : State} (h : Inv s) : stepsLeft s ≤ 17 := by
  unfold stepsLeft
  cases hp : s.phase <;> simp only
  case hsRdack => have := h.attemptRun (by simp [hp]) (by simp [hp]); omega
  case hsCmp => have := h.attemptRun (by simp [hp]) (by simp [hp]); omega
  all_goals omega

/-- An operation leads nearer to the end of the run. -/
theorem Inv.stepsLeft_lt {s t : State} (h : Inv s) (hi : s.phase ≠ .idle) (hn : s.phase.terminal = false)
    (ht : exec s.phase.operation s = .next t) : t.phase ≠ .idle ∧ stepsLeft t < stepsLeft s := by
  have hattempt := s.attempt.isLt
  cases hp : s.phase <;> rw [hp] at ht
  case idle => exact absurd hp hi
  case hsProbe =>
    obtain ⟨-, rfl⟩ := execHsProbe_next ht
    have hcount := nextAttempt_toNat (h.attemptProbe hp)
    have := h.attemptProbe hp
    refine ⟨nofun, ?_⟩
    simp only [stepsLeft, hp, hcount]
    omega
  case hsRdack =>
    obtain ⟨r, -, -, ht, -⟩ := execHsRdack_next ht
    rw [ht]
    refine ⟨nofun, ?_⟩
    simp only [stepsLeft, hp]
    omega
  case hsCmp =>
    obtain ⟨-, rfl⟩ | ⟨-, -, rfl⟩ | ⟨-, -, rfl⟩ := execHsCmp_next ht <;> refine ⟨nofun, ?_⟩ <;>
      simp only [stepsLeft, hp] <;> omega
  case acqReq => obtain ⟨-, rfl⟩ := execAcqReq_next ht; exact ⟨nofun, by simp [stepsLeft, hp]⟩
  case acqRead =>
    obtain ⟨r, -, -, ht⟩ := execAcqRead_next ht
    rw [ht]
    exact ⟨nofun, by simp [stepsLeft, hp]⟩
  case acqClose => cases ht; exact ⟨nofun, by simp [stepsLeft, hp]⟩
  case acqLen => obtain ⟨-, rfl⟩ | ⟨-, rfl⟩ := execAcqLen_next ht <;> exact ⟨nofun, by simp [stepsLeft, hp]⟩
  case decEnv => obtain ⟨-, rfl⟩ | ⟨-, rfl⟩ := execDecEnv_next ht <;> exact ⟨nofun, by simp [stepsLeft, hp]⟩
  case decCrc =>
    obtain ⟨p, -, ⟨-, rfl⟩ | ⟨-, rfl⟩⟩ := execDecCrc_next ht <;> exact ⟨nofun, by simp [stepsLeft, hp]⟩
  case decFx =>
    obtain ⟨x, -, rfl⟩ := execDecFx_next ht
    cases s.config.forecastEn <;> exact ⟨nofun, by simp [stepsLeft, hp]⟩
  case fcMap => obtain ⟨l, -, rfl⟩ | ⟨-, rfl⟩ := execFcMap_next ht <;> exact ⟨nofun, by simp [stepsLeft, hp]⟩
  case done => rw [hp] at hn; cases hn
  case failed => rw [hp] at hn; cases hn

theorem Inv.run_ends (n : Nat) : ∀ {s : State}, Inv s → s.host = [] → s.phase ≠ .idle → stepsLeft s ≤ n →
    ∃ t, core.run n s = .next t ∧ t.phase.terminal = true := by
  induction n with
  | zero =>
    intro s h hh hi hn
    refine ⟨s, rfl, by_contra fun hter => ?_⟩
    rw [Bool.not_eq_true] at hter
    obtain ⟨t, ht⟩ := h.operation_completes hi
    have := (h.stepsLeft_lt hi hter ht).2
    omega
  | succ n ih =>
    intro s h hh hi hn
    cases hter : s.phase.terminal with
    | true => exact ⟨s, run_terminal h.noIssue hh hter _, hter⟩
    | false =>
      obtain ⟨t, ht⟩ := h.operation_completes hi
      have hstep : step s = .next t := (step_phase h.noIssue hh rfl hi).trans ht
      obtain ⟨hit, hlt⟩ := h.stepsLeft_lt hi hter ht
      obtain ⟨-, -, -, hhost, -⟩ := exec_configuration ht
      rw [run_next hstep]
      exact ih (everyStepKeepsTheInvariant s t h hstep) (hhost.trans hh) hit (by omega)

/-- Settles O57: the steps left go down with each step, and no run has more than 17. -/
theorem everyRunEndsWithinSeventeenSteps : Obligations.EveryRunEndsWithinSeventeenSteps :=
  fun _ h hh hi => h.run_ends 17 hh hi h.stepsLeft_le

/-! ### What holds at the end -/

/-- Settles O58: ERR tells DONE from FAILED, and ATTEMPT is 1 to 3, or 3 where the handshake failed, so that TXLOG is one
of four. -/
theorem endedRunsHaveClosedTheLink : Obligations.EndedRunsHaveClosedTheLink := by
  intro s h hter
  have hphase : s.phase = .done ↔ s.err = .noError := by
    obtain hp | hp := (terminal_iff _).1 hter
    · have he : s.err = .noError := by_contra fun he => by simpa [hp] using h.error.1 he
      exact ⟨fun _ => he, fun _ => hp⟩
    · exact ⟨fun hd => by simp [hp] at hd, fun he => absurd he (h.error.2 hp)⟩
  have hcode : s.err = .noError ↔ s.err.code s.params.errCodes = 0 :=
    ⟨fun he => by rw [he]; rfl, fun he => ErrCodes.code_injective h.codes (he.trans (errCode_noError _).symm)⟩
  refine ⟨?_, hphase, hphase.trans hcode, fun he => ?_, fun he => ?_⟩
  · rw [h.link]
    obtain hp | hp := (terminal_iff _).1 hter <;> rw [hp] <;> rfl
  · have hp : s.phase = .failed := h.error.1 (by simp [he])
    rw [h.sentWake (by simp [State.requested, hp, he]), h.attemptOut he]
    rfl
  · have hreq : s.requested := by
      obtain hp | hp := (terminal_iff _).1 hter <;> simp [State.requested, hp, he]
    have hlow : 1 ≤ s.attempt.toNat := h.attemptRun (ne_idle_of_terminal hter) 
      (fun hp => by rw [hp] at hter; cases hter)
    have hhigh := s.attempt.isLt
    rw [h.sentAll hreq]
    obtain ha | ha | ha : s.attempt.toNat = 1 ∨ s.attempt.toNat = 2 ∨ s.attempt.toNat = 3 := by omega
    all_goals rw [ha]; decide

/-! ### No partial extraction -/

theorem Inv.frameWellFormed {s : State} (h : Inv s) (hp : s.phase = .decFx) :
    frameWellFormed s.params.crcStep s.frameBytes = true := by
  have hv : s.validated := .inl (by simp [hp])
  have hlen : s.frameBytes.length = Config.frameLen := by simp [State.frameBytes, Config.frameLen]
  rw [Machine.frameWellFormed, h.shape (.inr hv), Config.payloadBase, h.residue hv, hlen]
  rfl

/-- Settles O45: of the operations only START, which leaves X absent, and DEC.FX write X as a whole, and the sequencer
runs no field operation. -/
theorem nothingIsExtractedFromAMalformedFrame : Obligations.NothingIsExtractedFromAMalformedFrame := by
  intro s t h hs hx hxt
  obtain rfl | ⟨hi, -, ht⟩ | ⟨hp, ht⟩ | ⟨-, c, -, -, -, rfl⟩ | ⟨-, -, rfl⟩ := step_cases h.noIssue hs
  · exact absurd hx hxt
  · have hp : s.phase = .decFx := by
      by_contra hne
      refine hxt (Eq.trans ?_ hx)
      rw [exec_written ht]
      cases hp : s.phase <;> simp [hp] at hi hne <;> rfl
    exact ⟨hp, h.frameWellFormed hp⟩
  · cases (exec_start_idle (s := s.popHost) hp).symm.trans ht
    exact absurd rfl hxt
  · exact absurd hx hxt
  · exact absurd rfl hxt

end Sys2Proof.Machine
end

section
/-! PROOFS. Runs of the sequencer left to itself: HANDSHAKE (42_handshake.md R93), ACQUIRE (43_acquisition.md R104), DECODE
(44_decoder_envelope.md R112), and RUN (40_pipeline_control.md R75). -/

namespace Sys2Proof.Machine

/-! ### Runs with nothing issued and no host command -/

theorem step_alone_keeps {s t : State} (hi : s.issue = none) (hh : s.host = []) (h : step s = .next t) :
    t.issue = none ∧ t.host = [] := by
  rw [step_alone hi hh] at h
  by_cases hp : s.phase = .idle
  · cases (sequencerStep_idle hp).symm.trans h
    exact ⟨hi, hh⟩
  · obtain ⟨-, -, -, hhost, hissue⟩ := exec_configuration ((sequencerStep_busy hp).symm.trans h)
    exact ⟨hissue.trans hi, hhost.trans hh⟩

theorem run_alone_keeps (n : Nat) : ∀ {s t : State}, s.issue = none → s.host = [] → core.run n s = .next t →
    t.issue = none ∧ t.host = [] := by
  induction n with
  | zero =>
    intro s t hi hh h
    cases h
    exact ⟨hi, hh⟩
  | succ n ih =>
    intro s t hi hh h
    cases hs : step s with
    | next u =>
      obtain ⟨hi', hh'⟩ := step_alone_keeps hi hh hs
      exact ih hi' hh' ((run_next hs n).symm.trans h)
    | fault f => cases (run_fault hs n).symm.trans h
    | refused r => cases (run_refused hs n).symm.trans h

theorem run_trans {m n : Nat} {s t : State} (h : core.run m s = .next t) : core.run (m + n) s = core.run n t := by
  rw [run_add, h]

/-- One step of a run: the operation of its phase. -/
theorem run_operation {s t : State} (p : Phase) (h : exec p.operation s = .next t) (hi : s.issue = none)
    (hh : s.host = []) (hp : s.phase = p) (hne : p ≠ .idle) (n : Nat) : core.run (n + 1) s = core.run n t :=
  run_next ((step_phase hi hh hp hne).trans h) n

/-- Once a run has ended it stays as it is. -/
theorem run_ended {m n : Nat} {s t : State} (hi : s.issue = none) (hh : s.host = []) (h : core.run m s = .next t)
    (hter : t.phase.terminal = true) (hmn : m ≤ n) : core.run n s = .next t := by
  obtain ⟨hi', hh'⟩ := run_alone_keeps m hi hh h
  rw [← Nat.add_sub_cancel' hmn, run_trans h, run_terminal hi' hh' hter]

/-! ### The handshake -/

/-- The state in HS_CMP after a probe that the station answered with `a`. -/
def State.probed (s : State) (a : List Byte) (rest : List (List Byte)) : State :=
  ({ s with attempt := nextAttempt s, txlog := s.txlog ++ wakeBytes, rx := rest }.setAck (a.take 2)).goto .hsCmp

theorem ackMatches_setAck {s : State} {r : List Byte} (hr : r.length ≤ 2) :
    ackMatches (s.setAck r) = true ↔ r = ackBytes := by
  rw [ackMatches_iff, setAck_acklen, setAck_ackbuf0, setAck_ackbuf1, ackBytes]
  rcases r with _ | ⟨x, _ | ⟨y, _ | ⟨z, r⟩⟩⟩
  · simp
  · simp
  · simp
  · simp only [List.length_cons] at hr
    omega

theorem ackMatches_probed (s : State) (a : List Byte) (rest : List (List Byte)) :
    ackMatches (s.probed a rest) = true ↔ a.take 2 = ackBytes :=
  ackMatches_setAck (by rw [List.length_take]; omega)

section Probe

variable {s : State} {a : List Byte} {rest : List (List Byte)} (hi : s.issue = none) (hh : s.host = [])
  (hp : s.phase = .hsProbe) (hl : s.linkOpen = true) (hrx : s.rx = a :: rest)

include hi hh hp hl hrx

theorem run_probed : core.run 2 s = .next (s.probed a rest) := by
  have hread : exec .hsRdack { s with
      attempt := nextAttempt s, txlog := s.txlog ++ wakeBytes, phase := .hsRdack } = .next (s.probed a rest) := by
    rw [exec_hsRdack_open (by exact hl), nextAnswer_cons (by exact hrx)]
    rfl
  exact (run_operation .hsProbe (exec_hsProbe_open hl) hi hh hp nofun 1).trans
    (run_operation .hsRdack hread hi hh rfl nofun 0)

theorem run_round_acked (h : a.take 2 = ackBytes) :
    core.run 3 s = .next { s.probed a rest with phase := .acqReq } := by
  have hcmp := exec_hsCmp_ack ((ackMatches_probed s a rest).2 h)
  exact (run_trans (n := 1) (run_probed hi hh hp hl hrx)).trans (run_operation .hsCmp hcmp hi hh rfl nofun 0)

theorem run_round_retry (h : a.take 2 ≠ ackBytes) (ha : (nextAttempt s).toNat < 3) :
    core.run 3 s = .next { s.probed a rest with phase := .hsProbe } := by
  have hcmp := exec_hsCmp_retry (Bool.eq_false_iff.2 (mt (ackMatches_probed s a rest).1 h)) ha
  exact (run_trans (n := 1) (run_probed hi hh hp hl hrx)).trans (run_operation .hsCmp hcmp hi hh rfl nofun 0)

theorem run_round_fail (h : a.take 2 ≠ ackBytes) (ha : ¬ (nextAttempt s).toNat < 3) :
    core.run 3 s =
      .next { s.probed a rest with linkOpen := false, err := .stationNotReady, phase := .failed } := by
  have hcmp := exec_hsCmp_fail (Bool.eq_false_iff.2 (mt (ackMatches_probed s a rest).1 h)) ha
  exact (run_trans (n := 1) (run_probed hi hh hp hl hrx)).trans (run_operation .hsCmp hcmp hi hh rfl nofun 0)

end Probe

/-- In HS_PROBE with the link open, after `n` attempts with no ACK of a run whose answers are `answers`. -/
structure Probing (answers : List (List Byte)) (n : Nat) (s : State) : Prop where
  issue   : s.issue = none
  host    : s.host = []
  phase   : s.phase = .hsProbe
  link    : s.linkOpen = true
  attempt : s.attempt.toNat = n
  txlog   : s.txlog = List.replicate n 0x0A#8
  rx      : s.rx = answers.drop n

theorem Probing.probed {answers rest : List (List Byte)} {n : Nat} {s : State} {a : List Byte} (h : Probing answers n s)
    (hn : n ≤ 2) (hrx : s.rx = a :: rest) :
    (s.probed a rest).attempt.toNat = n + 1 ∧ (s.probed a rest).txlog = List.replicate (n + 1) 0x0A#8 ∧
      (s.probed a rest).rx = answers.drop (n + 1) := by
  refine ⟨(nextAttempt_toNat (h.attempt.trans_le hn)).trans (by rw [h.attempt]), ?_, ?_⟩
  · show s.txlog ++ wakeBytes = _
    rw [h.txlog, List.replicate_succ']
    rfl
  · show rest = _
    rw [← List.drop_drop, ← h.rx, hrx]
    rfl

/-- Attempts that are not answered with ACK lead back to HS_PROBE, as long as one is left. -/
theorem Probing.run_unacked {answers : List (List Byte)} (n : Nat) : ∀ {s : State}, Probing answers 0 s → n ≤ 2 →
    n ≤ answers.length → (∀ k < n, (answers.getD k []).take 2 ≠ ackBytes) →
    ∃ t, core.run (3 * n) s = .next t ∧ Probing answers n t := by
  induction n with
  | zero => exact fun h _ _ _ => ⟨_, rfl, h⟩
  | succ n ih =>
    intro s h hn hlen hno
    obtain ⟨t, hrun, ht⟩ := ih h (by omega) (by omega) fun k hk => hno k (by omega)
    have hrx : t.rx = answers.getD n [] :: answers.drop (n + 1) := by
      rw [ht.rx, List.drop_eq_getElem_cons (by omega), List.getD_eq_getElem _ _ (by omega)]
    obtain ⟨hattempt, htx, hrest⟩ := ht.probed (by omega) hrx
    refine ⟨_, (run_trans hrun).trans (run_round_retry ht.issue ht.host ht.phase ht.link hrx (hno n (by omega)) ?_),
      ht.issue, ht.host, rfl, ht.link, hattempt, htx, hrest⟩
    exact hattempt.trans_lt (by omega)

/-- Settles O25: n attempts without ACK, and the round of the ACK. -/
theorem handshakeSucceedsAtTheFirstAck : Obligations.HandshakeSucceedsAtTheFirstAck := by
  intro s n hi hh hp ha hl htx hn hlen hno hack
  obtain ⟨t, hrun, ht⟩ := Probing.run_unacked (answers := s.rx) n ⟨hi, hh, hp, hl, by rw [ha]; rfl, htx, rfl⟩ (by omega)
    hlen.le hno
  have hrx : t.rx = s.rx.getD n [] :: s.rx.drop (n + 1) := by
    rw [ht.rx, List.drop_eq_getElem_cons hlen, List.getD_eq_getElem _ _ hlen]
  obtain ⟨hattempt, htx, hrest⟩ := ht.probed (by omega) hrx
  exact ⟨_, (run_trans hrun).trans (run_round_acked ht.issue ht.host ht.phase ht.link hrx hack), rfl, ht.link, hattempt,
    htx, hrest⟩

/-- Settles O26: two attempts without ACK, the third that raises the error, and FAILED for ever after. -/
theorem handshakeFailsAfterThreeAttempts : Obligations.HandshakeFailsAfterThreeAttempts := by
  intro s n hi hh hp ha hl htx hlen hno
  obtain ⟨t, hrun, ht⟩ := Probing.run_unacked (answers := s.rx) 2 ⟨hi, hh, hp, hl, by rw [ha]; rfl, htx, rfl⟩ (by omega)
    (by omega) fun k hk => hno k (by omega)
  have hrx : t.rx = s.rx.getD 2 [] :: s.rx.drop 3 := by
    rw [ht.rx, List.drop_eq_getElem_cons (by omega), List.getD_eq_getElem _ _ (by omega)]
  obtain ⟨hattempt, htx, hrest⟩ := ht.probed (by omega) hrx
  have hfail : core.run 9 s = _ := (run_trans hrun).trans (run_round_fail ht.issue ht.host ht.phase ht.link hrx
    (hno 2 (by omega)) (by rw [show (nextAttempt t).toNat = 3 from hattempt]; decide))
  exact ⟨_, run_ended hi hh hfail rfl (by omega), rfl, rfl, rfl, BitVec.eq_of_toNat_eq hattempt, htx, hrest⟩

/-! ### The acquisition -/

/-- The state in ACQ_CLOSE after a request that the station answered with `a`. -/
def State.answered (s : State) (a : List Byte) (rest : List (List Byte)) : State :=
  { s.setFrame (a.take 100) with txlog := s.txlog ++ loop1Bytes, rx := rest, phase := .acqClose }

/-- The state in ACQ_LEN after it. -/
def State.acquired (s : State) (a : List Byte) (rest : List (List Byte)) : State :=
  { s.answered a rest with linkOpen := false, phase := .acqLen }

theorem acquired_framelen (s : State) (a : List Byte) (rest : List (List Byte)) :
    (s.acquired a rest).framelen.toNat = min 100 a.length := by
  rw [← List.length_take]
  exact ofNat_framelen_toNat (by rw [List.length_take]; omega)

theorem acquired_readBytes {s : State} {a : List Byte} (h : 100 ≤ a.length) (rest : List (List Byte)) :
    readBytes (s.acquired a rest) 0 100 = .ok (a.take 100) :=
  (readBytes_congr (readByte_congr rfl rfl) 100 0).trans
    (readBytes_setFrame (s := s) (by rw [List.length_take]; omega))

section Acquire

variable {s : State} {a : List Byte} {rest : List (List Byte)} (hi : s.issue = none) (hh : s.host = [])
  (hp : s.phase = .acqReq) (hl : s.linkOpen = true) (hrx : s.rx = a :: rest)

include hi hh hp hl hrx

theorem run_acquired : core.run 3 s = .next (s.acquired a rest) := by
  have hread : exec .acqRead { s with txlog := s.txlog ++ loop1Bytes, phase := .acqRead } =
      .next (s.answered a rest) := by
    rw [exec_acqRead_open (by exact hl), nextAnswer_cons (by exact hrx)]
    rfl
  have hclose := exec_acqClose (s.answered a rest)
  exact (run_operation .acqReq (exec_acqReq_open hl) hi hh hp nofun 2).trans
    ((run_operation .acqRead hread hi hh rfl nofun 1).trans (run_operation .acqClose hclose hi hh rfl nofun 0))

theorem run_acquire_short (h : a.length < 100) :
    core.run 4 s = .next { s.acquired a rest with linkOpen := false, err := .incompleteData, phase := .failed } := by
  have hlen := exec_acqLen_short (s := s.acquired a rest) (by rw [acquired_framelen]; omega)
  exact (run_trans (n := 1) (run_acquired hi hh hp hl hrx)).trans (run_operation .acqLen hlen hi hh rfl nofun 0)

theorem run_acquire_whole (h : 100 ≤ a.length) :
    core.run 4 s = .next { s.acquired a rest with phase := .decEnv } := by
  have hlen := exec_acqLen_full (s := s.acquired a rest) (by rw [acquired_framelen]; omega)
  exact (run_trans (n := 1) (run_acquired hi hh hp hl hrx)).trans (run_operation .acqLen hlen hi hh rfl nofun 0)

end Acquire

/-- Settles O31. -/
theorem acquireTakesOneAnswerAndClosesTheLink : Obligations.AcquireTakesOneAnswerAndClosesTheLink := by
  intro s a rest hi hh hp hl hrx
  by_cases h : a.length < 100
  · exact ⟨_, run_acquire_short hi hh hp hl hrx h, rfl, rfl, rfl,
      fun _ => ⟨rfl, rfl, (acquired_framelen s a rest).trans (by omega)⟩, fun h' => absurd h (by omega)⟩
  · have hread := acquired_readBytes (s := s) (a := a) (by omega) rest
    exact ⟨_, run_acquire_whole hi hh hp hl hrx (by omega), rfl, rfl, rfl, fun h' => absurd h' h,
      fun _ => ⟨rfl, rfl, (readBytes_congr (readByte_congr rfl rfl) 100 0).trans hread⟩⟩

/-! ### The decoder -/

/-- `s` after the decoder phases, with the checksum `c` in the register, by what `decode(f, LAYOUT)` gives. -/
def State.decoded (s : State) (c : Half) : Except ErrCode XFile → State
  | .ok x => { s.setCrc c with x := x, phase := if s.config.forecastEn then .fcMap else .done }
  | .error e => { s.setCrc c with linkOpen := false, err := e, phase := .failed }

theorem decodePacket_shape {transform : List CrcOp} {f : List Byte} (c : ConfigReg) (hl : f.length = 100)
    (h : shapeMatches f = false) : decodePacket transform f c = .error .malformedPacket := by
  simp [decodePacket, hl, h]

theorem decodePacket_residue {transform : List CrcOp} {f : List Byte} (c : ConfigReg) (hl : f.length = 100)
    (h : crc16 transform (f.drop 1) 0 ≠ 0) : decodePacket transform f c = .error .malformedPacket := by
  rw [decodePacket, if_neg (not_not.2 hl), if_pos h, ite_self]

theorem decodePacket_ok {transform : List CrcOp} {f : List Byte} (c : ConfigReg) (hl : f.length = 100)
    (hm : shapeMatches f = true) (h : crc16 transform (f.drop 1) 0 = 0) :
    decodePacket transform f c = .ok (fieldsOf (f.drop 1) c) := by
  rw [decodePacket, if_neg (not_not.2 hl), hm, if_neg nofun, if_neg (not_not.2 h)]

/-- The decoder phases test and write what `decode` does, in the same order. -/
theorem run_decode {s : State} {f : List Byte} (hi : s.issue = none) (hh : s.host = []) (hp : s.phase = .decEnv)
    (hwf : s.config.wellFormed = true) (hf : readBytes s 0 100 = .ok f) :
    ∃ c, core.run 3 s = .next (s.decoded c (decodePacket s.params.crcStep f s.config)) := by
  have hlen := frame_length hf
  have hread {t : State} (hfr : t.frame = s.frame) (hl : t.framelen = s.framelen) : readBytes t 0 100 = .ok f :=
    (readBytes_congr (readByte_congr hfr hl) 100 0).trans hf
  cases hm : shapeMatches f with
  | false =>
    have henv : exec .decEnv s = .next (s.decoded s.crc (.error .malformedPacket)) := by
      rw [exec_decEnv_mismatch (hm ▸ shapeOf_of_frame hf), State.decoded, State.setCrc, State.crc, highHalf_halves,
        lowHalf_halves]
    rw [decodePacket_shape _ hlen hm]
    exact ⟨_, run_ended hi hh (run_operation .decEnv henv hi hh hp nofun 0) rfl (by decide)⟩
  | true =>
    have henv := run_operation .decEnv (exec_decEnv_match (hm ▸ shapeOf_of_frame hf)) hi hh hp nofun 2
    by_cases hz : crc16 s.params.crcStep (f.drop 1) 0 = 0
    · have hcrc := exec_decCrc_zero (s := { s with phase := .decCrc }) (hread rfl rfl) hz
      have hfx := exec_decFx_frame (s := { s with crcHi := 0, crcLo := 0, phase := .decFx }) (hread rfl rfl) hwf
      rw [decodePacket_ok _ hlen hm hz]
      exact ⟨0, henv.trans ((run_operation .decCrc hcrc hi hh rfl nofun 1).trans
        (run_operation .decFx hfx hi hh rfl nofun 0))⟩
    · have hcrc := exec_decCrc_nonzero (s := { s with phase := .decCrc }) (hread rfl rfl) hz
      rw [decodePacket_residue _ hlen hz]
      exact ⟨_, henv.trans (run_ended hi hh (run_operation .decCrc hcrc hi hh rfl nofun 0) rfl (by decide))⟩

/-- Settles O44. -/
theorem decoderPhasesComputeDecode : Obligations.DecoderPhasesComputeDecode := by
  intro s f hi hh hp hwf hf
  obtain ⟨c, hrun⟩ := run_decode hi hh hp hwf hf
  refine ⟨_, hrun, ?_⟩
  cases decodePacket s.params.crcStep f s.config with
  | ok x => exact ⟨rfl, rfl, rfl⟩
  | error e => exact ⟨rfl, rfl, rfl⟩

/-! ### RUN -/

/-- What a state in which a run has ended shows is what RUN gives; `answers` are all the answers of the run. -/
structure Shows (answers : List (List Byte)) (t : State) (r : RunResult) : Prop where
  phase : t.phase = r.phase
  err   : t.err = r.err
  x     : t.x = r.x
  label : (if t.label.valid then some t.label.label else none) = r.label
  txlog : t.txlog = r.txlog
  rx    : t.rx = answers.drop r.reads

/-- What a run starts with and the handshake keeps. -/
structure Fresh (s : State) : Prop where
  issue    : s.issue = none
  host     : s.host = []
  link     : s.linkOpen = true
  err      : s.err = .noError
  x        : s.x = .allAbsent
  label    : s.label.valid = false
  configWf : s.config.wellFormed = true

/-- The end of `runAcquire`, from what `decode(f, LAYOUT)` gives on. -/
def runDecoded (c : ConfigReg) (table : List (Byte × Label)) (tx : List Byte) (reads : Nat) :
    Except ErrCode XFile → RunResult
  | .error e => ⟨.failed, e, .allAbsent, none, tx, reads⟩
  | .ok x =>
    if c.forecastEn then
      match tableLookup table (lowHalf x.icon.raw) with
      | none => ⟨.failed, .unknownForecastCode, x, none, tx, reads⟩
      | some l => ⟨.done, .noError, x, some l, tx, reads⟩
    else ⟨.done, .noError, x, none, tx, reads⟩

theorem runAcquire_short (transform : List CrcOp) (c : ConfigReg) (table : List (Byte × Label)) (sent : List Byte)
    (reads : Nat) {b : List Byte} (h : b.length < 100) : runAcquire transform c table sent reads b =
      ⟨.failed, .incompleteData, .allAbsent, none, sent ++ loop1Bytes, reads + 1⟩ := by
  rw [runAcquire, if_pos (by rw [List.length_take]; omega)]

theorem runAcquire_whole (transform : List CrcOp) (c : ConfigReg) (table : List (Byte × Label)) (sent : List Byte)
    (reads : Nat) {b : List Byte} (h : 100 ≤ b.length) : runAcquire transform c table sent reads b =
      runDecoded c table (sent ++ loop1Bytes) (reads + 1) (decodePacket transform (b.take 100) c) := by
  rw [runAcquire, if_neg (by rw [List.length_take]; omega)]
  cases decodePacket transform (b.take 100) c <;> rfl

theorem label_none {s : State} (h : s.label.valid = false) :
    (if s.label.valid then some s.label.label else none) = none := by
  rw [h]
  rfl

/-- From DEC_ENV on. -/
theorem run_decode_shows {answers : List (List Byte)} {s : State} {f : List Byte} {reads : Nat} (hi : s.issue = none)
    (hh : s.host = []) (hp : s.phase = .decEnv) (hwf : s.config.wellFormed = true) (hf : readBytes s 0 100 = .ok f)
    (herr : s.err = .noError) (hx : s.x = .allAbsent) (hlabel : s.label.valid = false)
    (hrx : s.rx = answers.drop reads) : ∃ t : State, core.run 4 s = .next t ∧
      Shows answers t (runDecoded s.config s.table s.txlog reads (decodePacket s.params.crcStep f s.config)) := by
  obtain ⟨c, hrun⟩ := run_decode hi hh hp hwf hf
  cases hd : decodePacket s.params.crcStep f s.config with
  | error e =>
    rw [hd] at hrun
    exact ⟨_, run_ended hi hh hrun rfl (by decide), rfl, rfl, hx, label_none hlabel, rfl, hrx⟩
  | ok x =>
    rw [hd] at hrun
    cases hfc : s.config.forecastEn with
    | false =>
      have hphase : (s.decoded c (.ok x)).phase = .done := by simp [State.decoded, hfc]
      rw [runDecoded, hfc, if_neg nofun]
      exact ⟨_, run_ended hi hh hrun (by rw [hphase]; rfl) (by decide), hphase, herr, rfl, label_none hlabel, rfl, hrx⟩
    | true =>
      have hphase : (s.decoded c (.ok x)).phase = .fcMap := by simp [State.decoded, hfc]
      rw [runDecoded, hfc, if_pos rfl]
      cases hl : tableLookup s.table (lowHalf x.icon.raw) with
      | none =>
        have hmap := exec_fcMap_unknown (s := s.decoded c (.ok x)) hl
        exact ⟨_, (run_trans (n := 1) hrun).trans (run_operation .fcMap hmap hi hh hphase nofun 0), rfl, rfl, rfl,
          label_none hlabel, rfl, hrx⟩
      | some l =>
        have hmap := exec_fcMap_known (s := s.decoded c (.ok x)) hl
        exact ⟨_, (run_trans (n := 1) hrun).trans (run_operation .fcMap hmap hi hh hphase nofun 0), rfl, herr, rfl,
          rfl, rfl, hrx⟩

/-- From the label `acquire` on, with `b` the station's answer. -/
theorem run_acquire_shows {answers rest : List (List Byte)} {s : State} {b : List Byte} {reads : Nat} (h : Fresh s)
    (hp : s.phase = .acqReq) (hrx : s.rx = b :: rest) (hrest : rest = answers.drop (reads + 1)) :
    ∃ t : State, core.run 8 s = .next t ∧
      Shows answers t (runAcquire s.params.crcStep s.config s.table s.txlog reads b) := by
  by_cases hb : b.length < 100
  · have hrun := run_acquire_short h.issue h.host hp h.link hrx hb
    rw [runAcquire_short _ _ _ _ _ hb]
    exact ⟨_, run_ended h.issue h.host hrun rfl (by decide), rfl, rfl, h.x, label_none h.label, rfl, hrest⟩
  · rw [runAcquire_whole _ _ _ _ _ (by omega)]
    obtain ⟨t, hrun, ht⟩ := run_decode_shows (answers := answers) (s := { s.acquired b rest with phase := .decEnv })
      h.issue h.host rfl h.configWf
      ((readBytes_congr (readByte_congr rfl rfl) 100 0).trans (acquired_readBytes (by omega) rest)) h.err h.x h.label hrest
    exact ⟨t, (run_trans (n := 4) (run_acquire_whole h.issue h.host hp h.link hrx (by omega))).trans hrun, ht⟩

theorem runAcquire_terminal (transform : List CrcOp) (c : ConfigReg) (table : List (Byte × Label)) (sent : List Byte)
    (reads : Nat) (b : List Byte) : (runAcquire transform c table sent reads b).phase.terminal = true := by
  by_cases hb : b.length < 100
  · rw [runAcquire_short _ _ _ _ _ hb]
    rfl
  · rw [runAcquire_whole _ _ _ _ _ (by omega)]
    cases decodePacket transform (b.take 100) c with
    | error e => rfl
    | ok x =>
      rw [runDecoded]
      split
      · split <;> rfl
      · rfl

theorem Fresh.probed {s : State} (h : Fresh s) (p : Phase) (a : List Byte) (rest : List (List Byte)) :
    Fresh { s.probed a rest with phase := p } := { h with }

/-- RUN's loop on an answer that is not ACK. -/
theorem runHandshake_unacked {a : List Byte} (hno : a.take 2 ≠ ackBytes) (transform : List CrcOp) (c : ConfigReg)
    (table : List (Byte × Label)) (left : Nat) (sent : List Byte) (reads : Nat) (rest : List (List Byte)) :
    runHandshake transform c table (left + 1) sent reads (a :: rest) =
      runHandshake transform c table left (sent ++ wakeBytes) (reads + 1) rest := if_neg hno

/-- RUN's loop on an ACK. -/
theorem runHandshake_acked {a : List Byte} (hack : a.take 2 = ackBytes) (transform : List CrcOp) (c : ConfigReg)
    (table : List (Byte × Label)) (left : Nat) (sent : List Byte) (reads : Nat) (b : List Byte)
    (rest : List (List Byte)) :
    runHandshake transform c table (left + 1) sent reads (a :: b :: rest) =
      runAcquire transform c table (sent ++ wakeBytes) (reads + 1) b := if_pos hack

theorem drop_succ_of_cons {answers rest : List (List Byte)} {a : List Byte} {reads : Nat}
    (h : a :: rest = answers.drop reads) : rest = answers.drop (reads + 1) := by
  rw [← List.drop_drop, ← h]
  rfl

/-- A round that is answered with ACK, and the acquisition that follows. -/
theorem run_handshake_acked {answers rest : List (List Byte)} {s : State} {a b : List Byte} {reads : Nat} (h : Fresh s)
    (hp : s.phase = .hsProbe) (hrx : s.rx = a :: b :: rest) (hreads : a :: b :: rest = answers.drop reads)
    (hack : a.take 2 = ackBytes) {n : Nat} (hn : 11 ≤ n) :
    ∃ t : State, core.run n s = .next t ∧
      Shows answers t (runAcquire s.params.crcStep s.config s.table (s.txlog ++ wakeBytes) (reads + 1) b) := by
  have hround := run_round_acked h.issue h.host hp h.link hrx hack
  obtain ⟨t, hrun, ht⟩ := run_acquire_shows (h.probed .acqReq a (b :: rest)) rfl rfl
    (drop_succ_of_cons (drop_succ_of_cons hreads))
  have hterminal : t.phase.terminal = true := by rw [ht.phase, runAcquire_terminal]
  exact ⟨t, run_ended h.issue h.host ((run_trans (n := 8) hround).trans hrun) hterminal hn, ht⟩

theorem two_of_length {l : List (List Byte)} {n : Nat} (h : n + 2 ≤ l.length) : ∃ a b rest, l = a :: b :: rest := by
  rcases l with _ | ⟨a, _ | ⟨b, rest⟩⟩
  · simp at h
  · simp at h
  · exact ⟨a, b, rest, rfl⟩

/-- The handshake loop of RUN: each of its rounds is three steps, and what follows an ACK is at most eight. -/
theorem run_handshake_shows {answers : List (List Byte)} (left : Nat) : ∀ {s : State} {reads : Nat}, Fresh s →
    s.phase = .hsProbe → s.attempt.toNat + (left + 1) = 3 → s.rx = answers.drop reads → left + 2 ≤ s.rx.length →
    ∃ t : State, core.run (3 * (left + 1) + 8) s = .next t ∧
      Shows answers t (runHandshake s.params.crcStep s.config s.table (left + 1) s.txlog reads s.rx) := by
  induction left with
  | zero =>
    intro s reads h hp ha hreads hlen
    obtain ⟨a, b, rest, hrx⟩ := two_of_length hlen
    rw [hrx] at hreads ⊢
    by_cases hack : a.take 2 = ackBytes
    · rw [runHandshake_acked hack]
      exact run_handshake_acked h hp hrx hreads hack (by omega)
    · have hcount := nextAttempt_toNat (s := s) (by omega)
      have hround := run_round_fail h.issue h.host hp h.link hrx hack (by omega)
      rw [runHandshake_unacked hack]
      exact ⟨_, run_ended h.issue h.host hround rfl (by omega), rfl, rfl, h.x, label_none h.label, rfl,
        drop_succ_of_cons hreads⟩
  | succ left ih =>
    intro s reads h hp ha hreads hlen
    obtain ⟨a, b, rest, hrx⟩ := two_of_length (n := left + 1) hlen
    rw [hrx] at hreads hlen ⊢
    by_cases hack : a.take 2 = ackBytes
    · rw [runHandshake_acked hack]
      exact run_handshake_acked h hp hrx hreads hack (by omega)
    · have hcount := nextAttempt_toNat (s := s) (by omega)
      have hround := run_round_retry h.issue h.host hp h.link hrx hack (by omega)
      have hattempt : (nextAttempt s).toNat + (left + 1) = 3 := by omega
      obtain ⟨t, hrun, ht⟩ := ih (h.probed .hsProbe a (b :: rest)) rfl hattempt (drop_succ_of_cons hreads)
        (Nat.le_of_succ_le_succ hlen)
      rw [runHandshake_unacked hack, show 3 * (left + 1 + 1) + 8 = 3 + (3 * (left + 1) + 8) by omega]
      exact ⟨t, (run_trans hround).trans hrun, ht⟩

/-- The state in HS_PROBE after a reset, a CONFIG write and START. -/
def State.started (s : State) (c : ConfigReg) : State :=
  { applyReset s with
    config := c, host := [], attempt := 0, err := .noError, framelen := 0, x := .allAbsent,
    label := ⟨false, (applyReset s).label.label⟩, linkOpen := true, txlog := [], phase := .hsProbe }

theorem run_started {s : State} {c : ConfigReg} (hi : s.issue = none)
    (hh : s.host = [.reset, .writeConfig c, .start]) (hc : c.wellFormed = true) :
    core.run 3 s = .next (s.started c) := by
  have hreset : step s = .next { applyReset s with host := [.writeConfig c, .start] } :=
    hostResetAbandonsTheRunInAnyPhase s _ hi hh
  have hwrite : step { applyReset s with host := [.writeConfig c, .start] } =
      .next { applyReset s with host := [.start], config := c } :=
    (hostWritesActOnlyOnConfigInIdle _ c 0 [.start] rfl).1 rfl rfl hc
  have hstart : step { applyReset s with host := [.start], config := c } = .next (s.started c) :=
    (stepRunsTheDecodedInstruction.2.1 _ [] rfl rfl).trans (exec_start_idle rfl)
  exact (run_next hreset 2).trans ((run_next hwrite 1).trans (run_next hstart 0))

/-- Settles O59: three steps to HS_PROBE, and then RUN's loop. -/
theorem stepMachineAgreesWithRun : Obligations.StepMachineAgreesWithRun := by
  intro s c hi hh hc hlen
  have hfresh : Fresh (s.started c) := ⟨rfl, rfl, rfl, rfl, rfl, rfl, hc⟩
  obtain ⟨t, hrun, ht⟩ := run_handshake_shows (answers := s.rx) 2 (reads := 0) hfresh rfl rfl rfl hlen
  exact ⟨t, _, (run_trans (n := 17) (run_started hi hh hc)).trans hrun, rfl, ht.phase, ht.err, ht.x, ht.label, ht.txlog,
    ht.rx⟩

end Sys2Proof.Machine
end

section
/-! PROOFS. Independence of runs (70_reset_and_hazards.md R172): two states that a run cannot tell apart, and that every
operation of a run keeps them so. -/

namespace Sys2Proof.Machine

/-- Two states of a run that differ in nothing the run reads: what FRAME holds beyond FRAMELEN, the checksum register,
`ret`, an invalid label, and ACKBUF and ACKLEN outside HS_CMP are left open. -/
structure Alike (s s' : State) : Prop where
  issue      : s.issue = none
  issue'     : s'.issue = none
  host       : s.host = []
  host'      : s'.host = []
  phase      : s.phase = s'.phase
  attempt    : s.attempt = s'.attempt
  linkOpen   : s.linkOpen = s'.linkOpen
  framelen   : s.framelen = s'.framelen
  read       : ∀ a, readByte s a = readByte s' a
  x          : s.x = s'.x
  labelValid : s.label.valid = s'.label.valid
  label      : s.label.valid = true → s.label = s'.label
  err        : s.err = s'.err
  config     : s.config = s'.config
  txlog      : s.txlog = s'.txlog
  table      : s.table = s'.table
  params     : s.params = s'.params
  rx         : s.rx = s'.rx
  drawn      : s.drawn = s'.drawn
  ack        : s.phase = .hsCmp → ackMatches s = ackMatches s'

/-- Two results that stop alike, or go on alike. -/
def AlikeResult : Result → Result → Prop
  | .next t, .next t' => Alike t t'
  | .fault f, .fault f' => f = f'
  | .refused r, .refused r' => r = r'
  | _, _ => False

theorem AlikeResult.of_next {r r' : Result} {t t' : State} (h : r = .next t) (h' : r' = .next t') (ht : Alike t t') :
    AlikeResult r r' := by
  rw [h, h']
  exact ht

theorem AlikeResult.of_fault {r r' : Result} {f : Fault} (h : r = .fault f) (h' : r' = .fault f) :
    AlikeResult r r' := by
  rw [h, h']
  exact rfl

/-- Two reads that answer the same, and then go on alike. -/
theorem AlikeResult.orFault {α : Type} {r r' : Except Fault α} {k k' : α → Result} (hr : r = r')
    (hk : ∀ v, AlikeResult (k v) (k' v)) : AlikeResult (orFault r k) (orFault r' k') := by
  subst hr
  cases r with
  | ok v => exact hk v
  | error f => exact rfl

section Operations

variable {s s' : State} (h : Alike s s')

include h

/-! ### The updates that the operations share -/

theorem Alike.goto {p : Phase} (hp : p ≠ .hsCmp) : Alike (s.goto p) (s'.goto p) :=
  { h with phase := rfl, ack := fun hc => absurd hc hp }

theorem Alike.raise (e : ErrCode) : Alike (raise e s) (raise e s') := by
  rw [raise_eq, raise_eq]
  exact { h with phase := rfl, linkOpen := rfl, err := rfl, ack := nofun }

theorem Alike.setCrc (c : Half) : Alike (s.setCrc c) (s'.setCrc c) := { h with }

theorem Alike.sent (bytes : List Byte) :
    Alike { s with txlog := s.txlog ++ bytes } { s' with txlog := s'.txlog ++ bytes } :=
  { h with txlog := congrArg (· ++ bytes) h.txlog }

/-- Both take the same answer, and stay alike. -/
theorem Alike.nextAnswer : (nextAnswer s).1 = (nextAnswer s').1 ∧ Alike (nextAnswer s).2 (nextAnswer s').2 := by
  have hrx := h.rx
  obtain ⟨a, rest, ha, hs⟩ | ⟨ha, hs⟩ := nextAnswer_cases s <;>
    obtain ⟨a', rest', ha', hs'⟩ | ⟨ha', hs'⟩ := nextAnswer_cases s' <;> rw [ha, ha'] at hrx <;> rw [hs, hs']
  · cases hrx
    exact ⟨rfl, { h with rx := rfl }⟩
  · cases hrx
  · cases hrx
  · exact ⟨congrArg Config.serialAnswer h.drawn, { h with drawn := congrArg (· + 1) h.drawn }⟩

theorem Alike.readBytes (n a : Nat) : readBytes s a n = readBytes s' a n := readBytes_congr h.read n a

theorem Alike.allFields : allFields s = allFields s' := by
  simp only [Machine.allFields, fieldResult, fieldRaw, loadU8, loadU16, readHalf, h.read, h.config]

/-! ### The operations of a run -/

theorem Alike.hsProbe : AlikeResult (exec .hsProbe s) (exec .hsProbe s') := by
  cases hl : s.linkOpen with
  | false =>
    exact .of_fault (exec_linkClosed hl (by simp)) (exec_linkClosed (h.linkOpen.symm.trans hl) (by simp))
  | true =>
    have hattempt : nextAttempt s = nextAttempt s' := by simp only [nextAttempt, h.attempt, h.drawn]
    exact .of_next (exec_hsProbe_open hl) (exec_hsProbe_open (h.linkOpen.symm.trans hl))
      { h.sent wakeBytes with attempt := hattempt, phase := rfl, ack := nofun }

theorem Alike.hsRdack : AlikeResult (exec .hsRdack s) (exec .hsRdack s') := by
  cases hl : s.linkOpen with
  | false =>
    exact .of_fault (exec_linkClosed hl (by simp)) (exec_linkClosed (h.linkOpen.symm.trans hl) (by simp))
  | true =>
    obtain ⟨ha, hn⟩ := h.nextAnswer
    refine .of_next (exec_hsRdack_open hl) (exec_hsRdack_open (h.linkOpen.symm.trans hl)) ?_
    rw [ha]
    have hack := ackMatches_setAck (s := (Machine.nextAnswer s).2) (r := (Machine.nextAnswer s').1.take 2)
      (by rw [List.length_take]; omega)
    have hack' := ackMatches_setAck (s := (Machine.nextAnswer s').2) (r := (Machine.nextAnswer s').1.take 2)
      (by rw [List.length_take]; omega)
    exact { hn with
      phase := rfl, drawn := congrArg (· + 2) hn.drawn, ack := fun _ => Bool.eq_iff_iff.2 (hack.trans hack'.symm) }

theorem Alike.hsCmp (hp : s.phase = .hsCmp) : AlikeResult (exec .hsCmp s) (exec .hsCmp s') := by
  have hack := h.ack hp
  have hattempt := h.attempt
  show Alike _ _
  rw [← hack, ← hattempt]
  split
  · exact h.goto nofun
  · split
    · exact h.goto nofun
    · exact h.raise _

theorem Alike.acqReq : AlikeResult (exec .acqReq s) (exec .acqReq s') := by
  cases hl : s.linkOpen with
  | false =>
    exact .of_fault (exec_linkClosed hl (by simp)) (exec_linkClosed (h.linkOpen.symm.trans hl) (by simp))
  | true =>
    exact .of_next (exec_acqReq_open hl) (exec_acqReq_open (h.linkOpen.symm.trans hl))
      ((h.sent loop1Bytes).goto (p := .acqRead) nofun)

/-- After an acquisition read of `r`, FRAME reads as `r` and nothing beyond. -/
theorem Alike.setFrame {r : List Byte} (hr : r.length ≤ 100) : Alike (s.setFrame r) (s'.setFrame r) := by
  refine { h with framelen := rfl, read := fun a => ?_ }
  by_cases ha : a < r.length
  · rw [readByte_setFrame hr ha, readByte_setFrame hr ha]
  · by_cases ha' : a < 100
    · rw [readByte_setFrame_beyond (by omega) ha', readByte_setFrame_beyond (by omega) ha']
    · rw [readByte_outside (by omega), readByte_outside (by omega)]

theorem Alike.acqRead : AlikeResult (exec .acqRead s) (exec .acqRead s') := by
  cases hl : s.linkOpen with
  | false =>
    exact .of_fault (exec_linkClosed hl (by simp)) (exec_linkClosed (h.linkOpen.symm.trans hl) (by simp))
  | true =>
    obtain ⟨ha, hn⟩ := h.nextAnswer
    refine .of_next (exec_acqRead_open hl) (exec_acqRead_open (h.linkOpen.symm.trans hl)) ?_
    rw [ha]
    exact (hn.setFrame (by rw [List.length_take]; omega)).goto nofun

theorem Alike.acqClose : AlikeResult (exec .acqClose s) (exec .acqClose s') :=
  .of_next (exec_acqClose s) (exec_acqClose s') { h with linkOpen := rfl, phase := rfl, ack := nofun }

theorem Alike.acqLen : AlikeResult (exec .acqLen s) (exec .acqLen s') := by
  have hlen := h.framelen
  show Alike _ _
  rw [← hlen]
  split
  · exact h.raise _
  · exact h.goto nofun

theorem Alike.decEnv : AlikeResult (exec .decEnv s) (exec .decEnv s') := by
  refine .orFault (by simp only [shapeOf, h.readBytes]) fun shape => ?_
  cases shape with
  | true => exact h.goto (p := .decCrc) nofun
  | false => exact h.raise .malformedPacket

theorem Alike.decCrc : AlikeResult (exec .decCrc s) (exec .decCrc s') := by
  refine .orFault (h.readBytes _ _) fun payload => ?_
  have hcrc := h.setCrc (crc16 s.params.crcStep payload 0)
  show Alike _ _
  rw [← h.params]
  simp only [crcIsZero_setCrc]
  split
  · exact hcrc.goto nofun
  · exact hcrc.raise _

theorem Alike.decFx : AlikeResult (exec .decFx s) (exec .decFx s') := by
  refine .orFault h.allFields fun x => ?_
  have hfc : s.config.forecastEn = s'.config.forecastEn := by rw [h.config]
  show Alike _ _
  rw [← hfc]
  exact { h with x := rfl, phase := rfl, ack := fun hc => by simp [State.goto] at hc; split at hc <;> cases hc }

theorem Alike.fcMap : AlikeResult (exec .fcMap s) (exec .fcMap s') := by
  have hcode : iconCode s = iconCode s' := by rw [iconCode, iconCode, h.x]
  cases hl : tableLookup s.table (iconCode s) with
  | some l =>
    have hl' : tableLookup s'.table (iconCode s') = some l := by rw [← h.table, ← hcode, hl]
    exact .of_next (exec_fcMap_known hl) (exec_fcMap_known hl')
      { h with labelValid := rfl, label := fun _ => rfl, phase := rfl, ack := nofun }
  | none =>
    have hl' : tableLookup s'.table (iconCode s') = none := by rw [← h.table, ← hcode, hl]
    refine .of_next (exec_fcMap_unknown hl) (exec_fcMap_unknown hl') ?_
    exact { h with phase := rfl, linkOpen := rfl, err := rfl, ack := nofun }

/-! ### Steps and runs -/

theorem Alike.step : AlikeResult (step s) (step s') := by
  have hphase := h.phase
  cases hp : s.phase <;> rw [hp] at hphase
  case idle =>
    exact .of_next ((step_alone h.issue h.host).trans (sequencerStep_idle hp))
      ((step_alone h.issue' h.host').trans (sequencerStep_idle hphase.symm)) h
  all_goals rw [step_phase h.issue h.host hp nofun, step_phase h.issue' h.host' hphase.symm nofun]
  case hsProbe => exact h.hsProbe
  case hsRdack => exact h.hsRdack
  case hsCmp => exact h.hsCmp hp
  case acqReq => exact h.acqReq
  case acqRead => exact h.acqRead
  case acqClose => exact h.acqClose
  case acqLen => exact h.acqLen
  case decEnv => exact h.decEnv
  case decCrc => exact h.decCrc
  case decFx => exact h.decFx
  case fcMap => exact h.fcMap
  case done => exact h
  case failed => exact h

end Operations

theorem Alike.run (n : Nat) : ∀ {s s' : State}, Alike s s' → AlikeResult (core.run n s) (core.run n s') := by
  induction n with
  | zero => exact fun h => h
  | succ n ih =>
    intro s s' h
    have hstep := h.step
    cases hs : Machine.step s <;> cases hs' : Machine.step s' <;> rw [hs, hs'] at hstep
    case next.next t t' =>
      rw [run_next hs, run_next hs']
      exact ih hstep
    case fault.fault f f' => exact .of_fault (run_fault hs n) ((run_fault hs' n).trans (congrArg _ hstep.symm))
    case refused.refused r r' =>
      rw [run_refused hs, run_refused hs']
      exact hstep
    all_goals exact hstep.elim

/-- START writes what an earlier run left, but for what `Alike` leaves open. -/
theorem alike_of_start {s s' : State} (hi : s.issue = none) (hi' : s'.issue = none) (hp : s.phase = .idle)
    (hp' : s'.phase = .idle) (hh : s.host = [.start]) (hh' : s'.host = [.start]) (hconfig : s.config = s'.config)
    (htable : s.table = s'.table) (hparams : s.params = s'.params) (hrx : s.rx = s'.rx) (hdrawn : s.drawn = s'.drawn) :
    ∃ t t', step s = .next t ∧ step s' = .next t' ∧ Alike t t' := by
  have hstart {s : State} (hi : s.issue = none) (hh : s.host = [.start]) (hp : s.phase = .idle) :=
    (stepRunsTheDecodedInstruction.2.1 s [] hi hh).trans (exec_start_idle (s := { s with host := [] }) hp)
  refine ⟨_, _, hstart hi hh hp, hstart hi' hh' hp', ?_⟩
  exact {
    issue := hi, issue' := hi', host := rfl, host' := rfl, phase := rfl, attempt := rfl, linkOpen := rfl
    framelen := rfl, x := rfl, labelValid := rfl, label := nofun, err := rfl, config := hconfig, txlog := rfl
    table := htable, params := hparams, rx := hrx, drawn := hdrawn, ack := nofun
    read := fun a => by
      by_cases ha : a < 100
      · rw [readByte_unwritten ha (Nat.zero_le _), readByte_unwritten ha (Nat.zero_le _)]
      · rw [readByte_outside (by omega), readByte_outside (by omega)] }

theorem Alike.status {t t' : State} (h : Alike t t') : status t = status t' := by
  simp only [Machine.status, busy, h.phase, h.linkOpen]

/-- Settles O60: START makes the two states alike, and every step keeps them so. -/
theorem runsDoNotDependOnWhatEarlierRunsLeft : Obligations.RunsDoNotDependOnWhatEarlierRunsLeft := by
  intro s s' n hi hi' hp hp' hh hh' hconfig htable hparams hrx hdrawn
  obtain ⟨u, u', hs, hs', hu⟩ := alike_of_start hi hi' hp hp' hh hh' hconfig htable hparams hrx hdrawn
  rw [run_next hs, run_next hs']
  have hrun := hu.run n
  refine ⟨fun t ht => ?_, fun e he => ?_⟩
  · rw [ht] at hrun
    cases ht' : core.run n u' with
    | next t' =>
      rw [ht'] at hrun
      have ha : Alike t t' := hrun
      exact ⟨t', rfl, ha.phase, ha.err, ha.x, ha.labelValid, ha.label, ha.txlog, ha.attempt, ha.rx, ha.status⟩
    | fault f => rw [ht'] at hrun; exact hrun.elim
    | refused r => rw [ht'] at hrun; exact hrun.elim
  · rw [he] at hrun
    cases ht' : core.run n u' with
    | next t' => rw [ht'] at hrun; exact hrun.elim
    | fault f => rw [ht'] at hrun; exact congrArg _ (Eq.symm hrun)
    | refused r => rw [ht'] at hrun; exact hrun.elim

end Sys2Proof.Machine
end
